-- ==== Sys2Proof/Word.lean ====
section
/-! DEFINITION. The byte, the pixel and the plainest arithmetic of the block. -/

namespace Sys2Proof

/-- A byte, the unit of addressing of the byte buffers (20_memory.md R60). -/
abbrev Byte := BitVec 8

/-- The byte with a given value, for values below 256. -/
abbrev toByte (n : Nat) : Byte := BitVec.ofNat 8 n

/-- A pixel of `IMG`, `WIMG` and `PIMG`: red, green, blue, alpha, 8 bits each (10_state.md R30). -/
structure Pixel where
  r : Byte
  g : Byte
  b : Byte
  a : Byte
deriving DecidableEq, Repr

end Sys2Proof
end

