-- ==== Sys2Proof/Syntax.lean ====
section
/-! DEFINITION. The operations of the block, one constructor per row of spec/opcode_table.json. -/

namespace Sys2Proof

/-- The thirty operations (30_encoding.md R91). A command has no operand fields (R90): every operation finds its
operands in the registers and buffers its rule names. -/
inductive Instr where
  /-- `SYS.RESET`, code 0x01 (R325). -/
  | sysReset
  /-- `VWI.ENC`, code 0x10 (R133). -/
  | vwiEnc
  /-- `VWI.DEC`, code 0x11 (R139). -/
  | vwiDec
  /-- `CHK.PACK`, code 0x12 (R136). -/
  | chkPack
  /-- `CHK.GET`, code 0x13 (R138). -/
  | chkGet
  /-- `SEQ.PACK`, code 0x14 (R142). -/
  | seqPack
  /-- `SEQ.UNPACK`, code 0x15 (R143). -/
  | seqUnpack
  /-- `FIX.PACK`, code 0x16 (R145). -/
  | fixPack
  /-- `FIX.UNPACK`, code 0x17 (R146). -/
  | fixUnpack
  /-- `CUR.SET`, code 0x18 (R137). -/
  | curSet
  /-- `PIX.CLEAN`, code 0x20 (R171). -/
  | pixClean
  /-- `PIX.QUANT`, code 0x21 (R172). -/
  | pixQuant
  /-- `PIX.PACK8`, code 0x22 (R174). -/
  | pixPack8
  /-- `CLS.COUNT`, code 0x23 (R175). -/
  | clsCount
  /-- `CLS.FMT`, code 0x24 (R177). -/
  | clsFmt
  /-- `GEN.MONO`, code 0x25 (R180). -/
  | genMono
  /-- `GEN.VAL`, code 0x26 (R181). -/
  | genVal
  /-- `GEN.UNSCR`, code 0x27 (R182). -/
  | genUnscr
  /-- `RLE.BIN`, code 0x30 (R212). -/
  | rleBin
  /-- `RLE.MV`, code 0x31 (R214). -/
  | rleMv
  /-- `RLX.BIN`, code 0x32 (R216). -/
  | rlxBin
  /-- `RLX.MV`, code 0x33 (R217). -/
  | rlxMv
  /-- `CNT.SEARCH`, code 0x40 (R232). -/
  | cntSearch
  /-- `CNT.ASM`, code 0x41 (R237). -/
  | cntAsm
  /-- `ENCODE`, code 0x42 (R240). -/
  | encodeImage
  /-- `CNT.PARSE`, code 0x50 (R261). -/
  | cntParse
  /-- `PIX.RESCR`, code 0x51 (R265). -/
  | pixRescr
  /-- `PAL.EXPAND`, code 0x52 (R266). -/
  | palExpand
  /-- `PIX.CROP`, code 0x53 (R267). -/
  | pixCrop
  /-- `DECODE`, code 0x54 (R268). -/
  | decodeImage
deriving DecidableEq, Repr

/-- Every operation, in the table's order. -/
def Instr.all : List Instr :=
  [.sysReset, .vwiEnc, .vwiDec, .chkPack, .chkGet, .seqPack, .seqUnpack, .fixPack, .fixUnpack, .curSet] ++
    [.pixClean, .pixQuant, .pixPack8, .clsCount, .clsFmt, .genMono, .genVal, .genUnscr, .rleBin, .rleMv] ++
    [.rlxBin, .rlxMv, .cntSearch, .cntAsm, .encodeImage, .cntParse, .pixRescr, .palExpand, .pixCrop, .decodeImage]

end Sys2Proof
end

