-- ==== Sys2Proof/Decode.lean ====
section
/-! DEFINITION. Command decode (30_encoding.md R90 to R92) and the encoder. -/

namespace Sys2Proof

/-- Why a command byte is not decoded. -/
inductive DecodeError where
  /-- A byte that is not in the table of R91 (R92). -/
  | illegalCommand (b : Byte)
deriving DecidableEq, Repr

/-- The operation a command byte selects: total on all 256 bytes, the thirty codes of R91 and no other (R92). -/
def decode (b : Byte) : Except DecodeError Instr :=
  match b with
  | 0x01#8 => .ok .sysReset
  | 0x10#8 => .ok .vwiEnc
  | 0x11#8 => .ok .vwiDec
  | 0x12#8 => .ok .chkPack
  | 0x13#8 => .ok .chkGet
  | 0x14#8 => .ok .seqPack
  | 0x15#8 => .ok .seqUnpack
  | 0x16#8 => .ok .fixPack
  | 0x17#8 => .ok .fixUnpack
  | 0x18#8 => .ok .curSet
  | 0x20#8 => .ok .pixClean
  | 0x21#8 => .ok .pixQuant
  | 0x22#8 => .ok .pixPack8
  | 0x23#8 => .ok .clsCount
  | 0x24#8 => .ok .clsFmt
  | 0x25#8 => .ok .genMono
  | 0x26#8 => .ok .genVal
  | 0x27#8 => .ok .genUnscr
  | 0x30#8 => .ok .rleBin
  | 0x31#8 => .ok .rleMv
  | 0x32#8 => .ok .rlxBin
  | 0x33#8 => .ok .rlxMv
  | 0x40#8 => .ok .cntSearch
  | 0x41#8 => .ok .cntAsm
  | 0x42#8 => .ok .encodeImage
  | 0x50#8 => .ok .cntParse
  | 0x51#8 => .ok .pixRescr
  | 0x52#8 => .ok .palExpand
  | 0x53#8 => .ok .pixCrop
  | 0x54#8 => .ok .decodeImage
  | b => .error (.illegalCommand b)

/-- The command byte of an operation (R91): high nibble the family, low nibble the operation in it. -/
def encode (i : Instr) : Byte :=
  match i with
  | .sysReset => 0x01#8
  | .vwiEnc => 0x10#8
  | .vwiDec => 0x11#8
  | .chkPack => 0x12#8
  | .chkGet => 0x13#8
  | .seqPack => 0x14#8
  | .seqUnpack => 0x15#8
  | .fixPack => 0x16#8
  | .fixUnpack => 0x17#8
  | .curSet => 0x18#8
  | .pixClean => 0x20#8
  | .pixQuant => 0x21#8
  | .pixPack8 => 0x22#8
  | .clsCount => 0x23#8
  | .clsFmt => 0x24#8
  | .genMono => 0x25#8
  | .genVal => 0x26#8
  | .genUnscr => 0x27#8
  | .rleBin => 0x30#8
  | .rleMv => 0x31#8
  | .rlxBin => 0x32#8
  | .rlxMv => 0x33#8
  | .cntSearch => 0x40#8
  | .cntAsm => 0x41#8
  | .encodeImage => 0x42#8
  | .cntParse => 0x50#8
  | .pixRescr => 0x51#8
  | .palExpand => 0x52#8
  | .pixCrop => 0x53#8
  | .decodeImage => 0x54#8

/-- The first byte of a command of `nbits` bits whose value is `w`, every bit above `nbits` zero. A command is one
byte (R90). -/
def tableByte (nbits w : Nat) : Byte := toByte (w % 2 ^ nbits)

/-- The operation read from a row of spec/opcode_table.json. -/
def decodeTableWord (nbits w : Nat) : Option Instr :=
  match decode (tableByte nbits w) with
  | .ok i => some i
  | .error _ => none

end Sys2Proof
end

