-- ==== Sys2Proof/Config.lean ====
section
/-! DEFINITION. The parameters of an instance (00_scope.md R11) and the free values. -/

namespace Sys2Proof

/-- `UNSCREEN_POLICY` (43_container_encoder.md R235). -/
inductive UnscreenPolicy where
  | off
  | symmetric
  | asObserved
deriving DecidableEq, Repr

/-- `PALETTE_ORDER` (00_scope.md R11, 41_pixel_classifier_quantizer.md R175): the default, the order of first
occurrence, or any other order, which is the free permutation `Config.orderOf`. -/
inductive PaletteOrder where
  | firstOccurrence
  | arbitrary
deriving DecidableEq, Repr

/-- The parameters of R11. They are a property of the instance, not registers: no operation or host access can
change them (10_state.md R25), and reset does not touch them (70_reset_and_hazards.md R351). -/
structure Config where
  /-- `VBITS`; `none` stands for the default, infinite width. -/
  vbits : Option Nat
  /-- `QUANT_THRESHOLDS`, three bytes. -/
  t1 : Byte
  t2 : Byte
  t3 : Byte
  /-- `PALETTE_ORDER`. -/
  paletteOrder : PaletteOrder
  /-- `MONO_MAP`: packed bytes with their monochrome pixel, `false` for 0 and `true` for 255; the first entry of a
  byte counts (log 15). -/
  monoMap : List (Byte × Bool)
  /-- `UNSCREEN_POLICY`. -/
  unscreen : UnscreenPolicy
  /-- `CONTAINER_MAX`. -/
  containerMax : Nat
deriving DecidableEq, Repr

/-- The default of every parameter, as R11's table gives it. -/
def Config.default : Config where
  vbits := none
  t1 := 64
  t2 := 128
  t3 := 192
  paletteOrder := .firstOccurrence
  monoMap := [(0xC0, false), (0xFF, true)]
  unscreen := .off
  containerMax := 65535

/-- DESIGN CHOICE (log 9), a free value: the palette that an instance with a `PALETTE_ORDER` other than the default
builds from a given `PK`. It counts only where it is a permutation of the colours R175 collects. -/
opaque Config.orderOf : List Byte → List Byte

/-- DESIGN CHOICE (log 10), a free value: which index `GEN.VAL` gives a colour that the palette holds more than once
(R181 says "the index i with PAL[i] = c" and leaves this case open). It counts only where it is such an index. -/
opaque Config.repeatedIndex : List Byte → Byte → Nat

/-- DESIGN CHOICE (log 11), a free value: the element of `STR` for a palette index that no byte can hold. -/
opaque Config.wideIndexByte : Nat → Byte

end Sys2Proof
end

