-- ==== Sys2Proof/WellFormed.lean ====
section
/-! DEFINITION. Well-formedness: of an operation (nothing to check: a command has no fields, 30_encoding.md R90) and
of the parameters of an instance, which are the only terms of the spec that a check can refuse. -/

namespace Sys2Proof

/-- Every operation is well formed: the command byte has no operand fields (30_encoding.md R90). -/
def Instr.wf (_ : Instr) : Bool := true

/-- A finite `VBITS` is at least 16 (92_eei_decisions.md D10). -/
def Config.vbitsOk (c : Config) : Bool :=
  match c.vbits with
  | none => true
  | some n => decide (16 ≤ n)

/-- `0 < t1 ≤ 85 < t2 ≤ 170 < t3 ≤ 255` (41_pixel_classifier_quantizer.md R173). -/
def Config.thresholdsOk (c : Config) : Bool :=
  decide (0 < c.t1.toNat ∧ c.t1.toNat ≤ 85 ∧ 85 < c.t2.toNat ∧ c.t2.toNat ≤ 170 ∧ 170 < c.t3.toNat)

/-- A `MONO_MAP` keeps the entries `0xC0 ↦ 0` and `0xFF ↦ 255` (41_pixel_classifier_quantizer.md R179). -/
def Config.monoMapOk (c : Config) : Bool :=
  decide (c.monoMap.lookup 0xC0#8 = some false ∧ c.monoMap.lookup 0xFF#8 = some true)

/-- The constraints the spec puts on the parameters. -/
def Config.wf (c : Config) : Bool :=
  c.vbitsOk && c.thresholdsOk && c.monoMapOk

end Sys2Proof
end

