-- ==== Sys2Proof/Machine/State.lean ====
section
/-! DEFINITION. The state of the block (10_state.md), the moves of its host (70_reset_and_hazards.md R360) and the
reasons a step can stop. -/

namespace Sys2Proof.Machine

/-- A register or a buffer: its contents and its valid bit (10_state.md R22). -/
structure Slot (α : Type) where
  valid : Bool
  val : α
deriving DecidableEq, Repr

/-- A register or buffer that holds the value `x`: contents `x`, valid bit set. -/
abbrev Slot.put {α : Type} (x : α) : Slot α := ⟨true, x⟩

/-- A register or buffer that holds no value. Its contents are unreadable (R23); the model names `d` for them
(DESIGN CHOICE, log 3). -/
abbrev Slot.none {α : Type} (d : α) : Slot α := ⟨false, d⟩

/-- The scalar operand registers of 10_state.md R21. -/
structure Regs where
  /-- `V`: the integer the codec encodes or has decoded. -/
  v : Slot Nat
  /-- `N`: chunk width of the run-length region. -/
  n : Slot (BitVec 7)
  /-- `VN`: fixed width of an entry of the values region. -/
  vn : Slot (BitVec 4)
  /-- `W`: true, unpadded width. -/
  w : Slot (BitVec 8)
  /-- `H`: height. -/
  h : Slot (BitVec 8)
  /-- `PW`: padded width. -/
  pw : Slot (BitVec 9)
  /-- `FMT`: pixel format code (R96). -/
  fmt : Slot (BitVec 8)
  /-- `VAR`: the caller's variant, 0 Monochrome, 1 Color. -/
  var : Slot (BitVec 1)
  /-- `US`: the unscreen-applied flag. -/
  us : Slot (BitVec 1)
  /-- `F4`: end of the run-length region. -/
  f4 : Slot (BitVec 16)
  /-- `F6`: end of the values region. -/
  f6 : Slot (BitVec 16)
  /-- `RB`: first byte index of the window. -/
  rb : Slot (BitVec 17)
  /-- `RE`: byte index one past the window. -/
  re : Slot (BitVec 17)
  /-- `SI`: the unpacker's byte index (R27). -/
  si : Slot (BitVec 17)
  /-- `BI`: the unpacker's within-byte bit cursor (R27). -/
  bi : Slot (BitVec 3)
deriving DecidableEq, Repr

/-- The twelve buffers of 10_state.md R29, each a list addressed from index 0. Capacities are not modelled (log 8). -/
structure Memory where
  /-- `IMG`: the raster image. -/
  img : Slot (List Pixel)
  /-- `WIMG`: the encoder's working copy of the image. -/
  wimg : Slot (List Pixel)
  /-- `PK`: the packed-ARGB8 byte of each pixel. -/
  pk : Slot (List Byte)
  /-- `PAL`: the palette. -/
  pal : Slot (List Byte)
  /-- `STR`: the padded pixel or value stream (R31). -/
  str : Slot (List Byte)
  /-- `RUN`: the run-length sequence. -/
  run : Slot (List Nat)
  /-- `VALS`: the per-run values. -/
  vals : Slot (List Byte)
  /-- `SYM`: one integer's symbols. -/
  sym : Slot (List Nat)
  /-- `RLEB`: the packed run-length region. -/
  rleb : Slot (List Byte)
  /-- `VALB`: the packed values region. -/
  valb : Slot (List Byte)
  /-- `BUF`: the container, or any byte region. -/
  buf : Slot (List Byte)
  /-- `PIMG`: the reconstructed padded image. -/
  pimg : Slot (List Pixel)
deriving DecidableEq, Repr

/-- A host write of a scalar register (R360), the value as wide as the register (R21). -/
inductive RegWrite where
  | v (x : Nat)
  | n (x : BitVec 7)
  | vn (x : BitVec 4)
  | w (x : BitVec 8)
  | h (x : BitVec 8)
  | pw (x : BitVec 9)
  | fmt (x : BitVec 8)
  | var (x : BitVec 1)
  | us (x : BitVec 1)
  | f4 (x : BitVec 16)
  | f6 (x : BitVec 16)
  | rb (x : BitVec 17)
  | re (x : BitVec 17)
  | si (x : BitVec 17)
  | bi (x : BitVec 3)
deriving DecidableEq, Repr

/-- A host write of a whole buffer (R360). -/
inductive BufWrite where
  | img (xs : List Pixel)
  | wimg (xs : List Pixel)
  | pk (xs : List Byte)
  | pal (xs : List Byte)
  | str (xs : List Byte)
  | run (xs : List Nat)
  | vals (xs : List Byte)
  | sym (xs : List Nat)
  | rleb (xs : List Byte)
  | valb (xs : List Byte)
  | buf (xs : List Byte)
  | pimg (xs : List Pixel)
deriving DecidableEq, Repr

/-- A host write of one element of a buffer (R360), at index `i`. -/
inductive ElemWrite where
  | img (i : Nat) (x : Pixel)
  | wimg (i : Nat) (x : Pixel)
  | pk (i : Nat) (x : Byte)
  | pal (i : Nat) (x : Byte)
  | str (i : Nat) (x : Byte)
  | run (i : Nat) (x : Nat)
  | vals (i : Nat) (x : Byte)
  | sym (i : Nat) (x : Nat)
  | rleb (i : Nat) (x : Byte)
  | valb (i : Nat) (x : Byte)
  | buf (i : Nat) (x : Byte)
  | pimg (i : Nat) (x : Pixel)
deriving DecidableEq, Repr

/-- The names of the scalar registers (R21). -/
inductive RegName where
  | v | n | vn | w | h | pw | fmt | var | us | f4 | f6 | rb | re | si | bi
deriving DecidableEq, Repr

/-- The names of the buffers (R29). -/
inductive BufName where
  | img | wimg | pk | pal | str | run | vals | sym | rleb | valb | buf | pimg
deriving DecidableEq, Repr

/-- What a host asks to read (R360). -/
inductive HostRead where
  | reg (r : RegName)
  | buf (b : BufName)
  | elem (b : BufName) (i : Nat)
  | eos
  | tooMany
  | fault
  | fop
  /-- `CMD`, whose read "returns no defined value and a model refuses it" (R25). -/
  | cmd
deriving DecidableEq, Repr

/-- What a host read answers. -/
inductive HostValue where
  | number (x : Nat)
  | pixel (p : Pixel)
  | pixels (ps : List Pixel)
  | bytes (bs : List Byte)
  | numbers (ns : List Nat)
deriving DecidableEq, Repr

/-- One move of the world outside the block: a host access or a command (R360, R310), or the platform's reset event
(R350). -/
inductive HostMove where
  /-- A write of `CMD`, which executes the operation (R25). -/
  | cmd (b : Byte)
  | set (x : RegWrite)
  | load (x : BufWrite)
  | poke (x : ElemWrite)
  | read (x : HostRead)
  | resetEvent
deriving DecidableEq, Repr

/-- The fault names of 60_exceptions.md R301. They are recorded in `FAULT`; they do not stop the model. -/
inductive FaultCode where
  /-- Code 1. -/
  | encodeIntegrityError
  /-- Code 2. -/
  | malformedContainer
  /-- Code 3. A name only: never written to `FAULT` (R301, 93_implementation_defined.md behaviour 17). -/
  | unsupportedPaletteSize
  /-- Code 16. -/
  | illegalCommand
  /-- Code 17. -/
  | operandInvalid
  /-- Code 18. -/
  | badChunkWidth
  /-- Code 19. -/
  | zeroValue
  /-- Code 20. -/
  | valueTooWide
  /-- Code 21. -/
  | symbolRange
  /-- Code 22. -/
  | zeroArea
  /-- Code 23. -/
  | notMonochrome
  /-- Code 24. -/
  | containerTooLarge
  /-- Code 25. -/
  | unscreenUnsupported
  /-- Code 26. -/
  | operandShape
  /-- Code 27. -/
  | cursorRange
deriving DecidableEq, Repr

/-- The faults that stop the model: none. Every fault of the spec is recorded in `FAULT` and `FOP` and the machine
goes on (60_exceptions.md R304, R305), which is a next state (log 14). -/
inductive Fault where
deriving DecidableEq, Repr

/-- The moves that the model refuses. No operation of the table answers with one of these. -/
inductive Refusal where
  /-- An instruction without a meaning. Raised by no arm: every operation has its meaning. Safe. -/
  | notModelled (mnemonic : String)
  /-- A host read of `CMD` (10_state.md R25: "a model refuses it"). Safe. -/
  | readOfCmd
  /-- A host read of a register whose valid bit is clear (R360: "refused by the model"). Safe. -/
  | readOfInvalidRegister
  /-- A host read of a buffer, or of an element of it, whose valid bit is clear (R360 by R23). Safe. -/
  | readOfInvalidBuffer
  /-- A host read of an element beyond the length of a buffer: there is no such element (DEDUCED, log 6). Safe. -/
  | readBeyondLength
  /-- A host write of an element beyond the length of a buffer (R360: "refused by the model"). Safe. -/
  | writeBeyondLength
  /-- A host write of an element of an invalid buffer (R360: "refused by the model"). Safe. -/
  | writeToInvalidBuffer
  /-- A host write of `V` with a value that `VBITS` bits cannot hold: the register has no such value (R21; DEDUCED,
  log 6). Safe. -/
  | writeWiderThanV
deriving DecidableEq, Repr

/-- The state of the block and of what is attached to it. -/
structure State where
  /-- The parameters of the instance (00_scope.md R11), which no step writes (log 1). -/
  cfg : Config
  /-- The scalar operand registers (R21). -/
  regs : Regs
  /-- The buffers (R29). -/
  mem : Memory
  /-- The flag `EOS` (R24). -/
  eos : Bool
  /-- The flag `TOOMANY` (R24). -/
  tooMany : Bool
  /-- `FAULT`: 0, or the code of the first fault since reset (R25, R305). -/
  fault : Byte
  /-- `FOP`: the command code that wrote `FAULT` (R25, R304). -/
  fop : Byte
  /-- The model's own field: the host moves not yet made, in order (R26; log 2). -/
  host : List HostMove
deriving DecidableEq, Repr

/-- No register holds a value; the contents are the model's (DESIGN CHOICE, log 3). -/
def Regs.reset : Regs where
  v := .none 0
  n := .none 0
  vn := .none 0
  w := .none 0
  h := .none 0
  pw := .none 0
  fmt := .none 0
  var := .none 0
  us := .none 0
  f4 := .none 0
  f6 := .none 0
  rb := .none 0
  re := .none 0
  si := .none 0
  bi := .none 0

/-- No buffer holds a value; the contents are the model's (DESIGN CHOICE, log 3). -/
def Memory.reset : Memory where
  img := .none []
  wimg := .none []
  pk := .none []
  pal := .none []
  str := .none []
  run := .none []
  vals := .none []
  sym := .none []
  rleb := .none []
  valb := .none []
  buf := .none []
  pimg := .none []

/-- The block right after reset (10_state.md R34): every valid bit 0, `EOS = 0`, `TOOMANY = 0`, `FAULT = 0`,
`FOP = 0`, the parameters at their defaults (R11) and no host move pending. -/
def State.reset : State where
  cfg := Config.default
  regs := Regs.reset
  mem := Memory.reset
  eos := false
  tooMany := false
  fault := 0
  fop := 0
  host := []

end Sys2Proof.Machine
end

