-- ==== Sys2Proof/Machine/Ops.lean ====
section
/-! DEFINITION. The named operations over registers and buffers: reading an operand with its valid bit, writing a
destination, reading bytes of a container, taking a fault, running an operation, returning to the reset state. -/

namespace Sys2Proof.Machine

/-- The code of a fault (60_exceptions.md R301). -/
def FaultCode.code (x : FaultCode) : Byte :=
  match x with
  | .encodeIntegrityError => 1
  | .malformedContainer => 2
  | .unsupportedPaletteSize => 3
  | .illegalCommand => 16
  | .operandInvalid => 17
  | .badChunkWidth => 18
  | .zeroValue => 19
  | .valueTooWide => 20
  | .symbolRange => 21
  | .zeroArea => 22
  | .notMonochrome => 23
  | .containerTooLarge => 24
  | .unscreenUnsupported => 25
  | .operandShape => 26
  | .cursorRange => 27

/-- Reading an operand: a place whose valid bit is clear raises `OperandInvalid` (10_state.md R23). -/
def Slot.read {α : Type} (x : Slot α) : Except FaultCode α :=
  if x.valid then .ok x.val else .error .operandInvalid

/-- Reading an operand that the operation reads only under a condition (60_exceptions.md R306 item 4); `d` stands for
the operand where it is not read, and is used nowhere. -/
def Slot.readIf {α : Type} (x : Slot α) (p : Prop) [Decidable p] (d : α) : Except FaultCode α :=
  if p then x.read else .ok d

/-- The pseudocode's `require p else f` (00_scope.md R15). -/
def require (p : Prop) [Decidable p] (f : FaultCode) : Except FaultCode Unit :=
  if p then .ok () else .error f

/-- `MemRead(B, a, 1)` as a number (20_memory.md R62). -/
def memRead1 (B : List Byte) (a : Nat) : Nat := (B.getD a 0).toNat

/-- `MemRead(B, a, 2)`: least significant byte first (20_memory.md R61, R62). -/
def memRead2 (B : List Byte) (a : Nat) : Nat := memRead1 B a + 256 * memRead1 B (a + 1)

/-- The two bytes `MemWrite(B, a, 2, v)` stores, least significant first (20_memory.md R62). -/
def u16Bytes (v : Nat) : List Byte := [toByte (v % 256), toByte (v / 256)]

/-- TAKING A FAULT (60_exceptions.md R304): `FAULT` gets the code, `FOP` the command byte, and nothing else changes. -/
def takeFault (x : FaultCode) (op : Byte) (s : State) : State := { s with fault := x.code, fop := op }

/-- THE ONLY WAY OUT OF A FAULT (60_exceptions.md R311, R325; 70_reset_and_hazards.md R351): the reset state. The
parameters and the host's pending moves are not the block's to reset; the contents, unspecified and unreadable by
R34, are those of State.reset (DESIGN CHOICE, log 4). -/
def resetBlock (s : State) : State := { State.reset with cfg := s.cfg, host := s.host }

/-- Running the operation `i` whose effect is `body`, with the order of checks of 60_exceptions.md R306: while a fault
is recorded nothing happens (R305); else the operation's own checks and effect; a fault is taken with the
operation's code in `FOP` and every effect of the operation dropped (R304). -/
def runOp (i : Instr) (body : State → Except FaultCode State) (s : State) : Host.Outcome State Fault Refusal :=
  if s.fault ≠ 0 then .next s
  else
    match body s with
    | .ok t => .next t
    | .error x => .next (takeFault x (encode i) s)

/-- `V <- x`, valid bit set (10_state.md R22). -/
def State.setV (s : State) (x : Nat) : State :=
  { s with regs := { s.regs with v := .put x } }

/-- `N <- x`, valid bit set (10_state.md R22). -/
def State.setN (s : State) (x : BitVec 7) : State :=
  { s with regs := { s.regs with n := .put x } }

/-- `VN <- x`, valid bit set (10_state.md R22). -/
def State.setVn (s : State) (x : BitVec 4) : State :=
  { s with regs := { s.regs with vn := .put x } }

/-- `W <- x`, valid bit set (10_state.md R22). -/
def State.setW (s : State) (x : BitVec 8) : State :=
  { s with regs := { s.regs with w := .put x } }

/-- `H <- x`, valid bit set (10_state.md R22). -/
def State.setH (s : State) (x : BitVec 8) : State :=
  { s with regs := { s.regs with h := .put x } }

/-- `PW <- x`, valid bit set (10_state.md R22). -/
def State.setPw (s : State) (x : BitVec 9) : State :=
  { s with regs := { s.regs with pw := .put x } }

/-- `FMT <- x`, valid bit set (10_state.md R22). -/
def State.setFmt (s : State) (x : BitVec 8) : State :=
  { s with regs := { s.regs with fmt := .put x } }

/-- `VAR <- x`, valid bit set (10_state.md R22). -/
def State.setVar (s : State) (x : BitVec 1) : State :=
  { s with regs := { s.regs with var := .put x } }

/-- `US <- x`, valid bit set (10_state.md R22). -/
def State.setUs (s : State) (x : BitVec 1) : State :=
  { s with regs := { s.regs with us := .put x } }

/-- `F4 <- x`, valid bit set (10_state.md R22). -/
def State.setF4 (s : State) (x : BitVec 16) : State :=
  { s with regs := { s.regs with f4 := .put x } }

/-- `F6 <- x`, valid bit set (10_state.md R22). -/
def State.setF6 (s : State) (x : BitVec 16) : State :=
  { s with regs := { s.regs with f6 := .put x } }

/-- `RB <- x`, valid bit set (10_state.md R22). -/
def State.setRb (s : State) (x : BitVec 17) : State :=
  { s with regs := { s.regs with rb := .put x } }

/-- `RE <- x`, valid bit set (10_state.md R22). -/
def State.setRe (s : State) (x : BitVec 17) : State :=
  { s with regs := { s.regs with re := .put x } }

/-- `SI <- x`, valid bit set (10_state.md R22). -/
def State.setSi (s : State) (x : BitVec 17) : State :=
  { s with regs := { s.regs with si := .put x } }

/-- `BI <- x`, valid bit set (10_state.md R22). -/
def State.setBi (s : State) (x : BitVec 3) : State :=
  { s with regs := { s.regs with bi := .put x } }

/-- `IMG <- xs`, the whole buffer, valid bit set (10_state.md R22, 20_memory.md R72). -/
def State.setImg (s : State) (xs : List Pixel) : State :=
  { s with mem := { s.mem with img := .put xs } }

/-- `WIMG <- xs`, the whole buffer, valid bit set (10_state.md R22, 20_memory.md R72). -/
def State.setWimg (s : State) (xs : List Pixel) : State :=
  { s with mem := { s.mem with wimg := .put xs } }

/-- `PK <- xs`, the whole buffer, valid bit set (10_state.md R22, 20_memory.md R72). -/
def State.setPk (s : State) (xs : List Byte) : State :=
  { s with mem := { s.mem with pk := .put xs } }

/-- `PAL <- xs`, the whole buffer, valid bit set (10_state.md R22, 20_memory.md R72). -/
def State.setPal (s : State) (xs : List Byte) : State :=
  { s with mem := { s.mem with pal := .put xs } }

/-- `STR <- xs`, the whole buffer, valid bit set (10_state.md R22, 20_memory.md R72). -/
def State.setStr (s : State) (xs : List Byte) : State :=
  { s with mem := { s.mem with str := .put xs } }

/-- `RUN <- xs`, the whole buffer, valid bit set (10_state.md R22, 20_memory.md R72). -/
def State.setRun (s : State) (xs : List Nat) : State :=
  { s with mem := { s.mem with run := .put xs } }

/-- `VALS <- xs`, the whole buffer, valid bit set (10_state.md R22, 20_memory.md R72). -/
def State.setVals (s : State) (xs : List Byte) : State :=
  { s with mem := { s.mem with vals := .put xs } }

/-- `SYM <- xs`, the whole buffer, valid bit set (10_state.md R22, 20_memory.md R72). -/
def State.setSym (s : State) (xs : List Nat) : State :=
  { s with mem := { s.mem with sym := .put xs } }

/-- `RLEB <- xs`, the whole buffer, valid bit set (10_state.md R22, 20_memory.md R72). -/
def State.setRleb (s : State) (xs : List Byte) : State :=
  { s with mem := { s.mem with rleb := .put xs } }

/-- `VALB <- xs`, the whole buffer, valid bit set (10_state.md R22, 20_memory.md R72). -/
def State.setValb (s : State) (xs : List Byte) : State :=
  { s with mem := { s.mem with valb := .put xs } }

/-- `BUF <- xs`, the whole buffer, valid bit set (10_state.md R22, 20_memory.md R72). -/
def State.setBuf (s : State) (xs : List Byte) : State :=
  { s with mem := { s.mem with buf := .put xs } }

/-- `PIMG <- xs`, the whole buffer, valid bit set (10_state.md R22, 20_memory.md R72). -/
def State.setPimg (s : State) (xs : List Pixel) : State :=
  { s with mem := { s.mem with pimg := .put xs } }

/-- A place that holds no value has the contents State.reset names for it. -/
def Slot.canonical {α : Type} [DecidableEq α] (x : Slot α) (d : α) : Bool := x.valid || decide (x.val = d)

/-- The canonical form of the buffers: one that holds no value is empty, so that equal buffers are equal data. -/
def Memory.wf (m : Memory) : Bool :=
  m.img.canonical [] && m.wimg.canonical [] && m.pk.canonical [] && m.pal.canonical [] &&
    m.str.canonical [] && m.run.canonical [] && m.vals.canonical [] && m.sym.canonical [] &&
    m.rleb.canonical [] && m.valb.canonical [] && m.buf.canonical [] && m.pimg.canonical []

/-- The canonical form of the registers: one that holds no value has contents 0. -/
def Regs.wf (r : Regs) : Bool :=
  r.v.canonical 0 && r.n.canonical 0 && r.vn.canonical 0 && r.w.canonical 0 &&
    r.h.canonical 0 && r.pw.canonical 0 && r.fmt.canonical 0 && r.var.canonical 0 &&
    r.us.canonical 0 && r.f4.canonical 0 && r.f6.canonical 0 && r.rb.canonical 0 &&
    r.re.canonical 0 && r.si.canonical 0 && r.bi.canonical 0

end Sys2Proof.Machine
end

