-- ==== Sys2Proof/Machine/Flags.lean ====
section
/-! DEFINITION. The two flags, `EOS` and `TOOMANY` (10_state.md R24). There are no arithmetic condition codes. -/

namespace Sys2Proof.Machine

/-- `EOS <- x`. -/
def State.setEos (s : State) (x : Bool) : State := { s with eos := x }

/-- `TOOMANY <- x`. -/
def State.setTooMany (s : State) (x : Bool) : State := { s with tooMany := x }

/-- Moving the unpacker's cursor and writing the flag that goes with it (10_state.md R24, R27): `si` and `bi` are the
byte index and the bit cursor. -/
def State.setCursor (s : State) (si bi : Nat) (eos : Bool) : State :=
  ((s.setSi (BitVec.ofNat 17 si)).setBi (BitVec.ofNat 3 bi)).setEos eos

end Sys2Proof.Machine
end

