-- ==== Sys2Proof/Machine/Operands.lean ====
section
/-! DEFINITION. The places where a value is assembled from bits (30_encoding.md R108), the format tables (R96) and the
arithmetic the rules use (00_scope.md R13). -/

namespace Sys2Proof.Machine

/-- `ceil(a / b)` (00_scope.md R13). -/
def ceilDiv (a b : Nat) : Nat := (a + b - 1) / b

/-- `bitlength(v)`, the number of binary digits, 0 for 0 (00_scope.md R13). -/
def bitlength (v : Nat) : Nat := if v = 0 then 0 else Nat.log2 v + 1

/-- `n ∈ {1,2,4,8}` (00_scope.md R10). -/
abbrev isChunkWidth (n : Nat) : Prop := n = 1 ∨ n = 2 ∨ n = 4 ∨ n = 8

/-- The group of `n` bits at bit cursor `off` of a byte, counted from the most significant bit (30_encoding.md R108
item 4, 10_state.md R27). -/
def groupAt (b : Byte) (off n : Nat) : Nat := b.toNat / 2 ^ (8 - off - n) % 2 ^ n

/-- A value from its groups, most significant first (30_encoding.md R108 item 3). -/
def groupsValue (n : Nat) (gs : List Nat) : Nat := gs.foldl (fun v g => v * 2 ^ n + g) 0

/-- The chunk-spec byte `N + 128·US` (30_encoding.md R95). -/
def chunkSpec (n us : Nat) : Byte := toByte (n + 128 * us)

/-- `ppb`, pixels per byte (30_encoding.md R96). -/
def pixelsPerByte (f : Nat) : Nat :=
  match f with
  | 0 => 8
  | 1 => 1
  | 2 => 8
  | 3 => 4
  | _ => 2

/-- `vn`, the width of an entry of the values region, for formats 1 to 4 (30_encoding.md R96). -/
def valueWidth (f : Nat) : Nat :=
  match f with
  | 1 => 8
  | 2 => 1
  | 3 => 2
  | _ => 4

/-- The most palette bytes that formats 2 to 4 admit (30_encoding.md R96). -/
def maxPalette (f : Nat) : Nat :=
  match f with
  | 2 => 2
  | 3 => 4
  | _ => 16

/-- A palette of legal length for format `f`: no demand for formats 0 and 1. -/
abbrev paletteFits (f len : Nat) : Prop := 2 ≤ f → 1 ≤ len ∧ len ≤ maxPalette f

/-- `level(c)`, the number of thresholds that are at most `c` (41_pixel_classifier_quantizer.md R173). -/
def level (cfg : Config) (c : Byte) : Nat :=
  (if cfg.t1.toNat ≤ c.toNat then 1 else 0) + (if cfg.t2.toNat ≤ c.toNat then 1 else 0) +
    (if cfg.t3.toNat ≤ c.toNat then 1 else 0)

/-- The channel value `85·q` of a level (30_encoding.md R99). -/
def levelValue (q : Nat) : Byte := toByte (85 * q)

/-- The packed-ARGB8 byte of a pixel: the top two bits of alpha, red, green, blue (30_encoding.md R98,
41_pixel_classifier_quantizer.md R174). -/
def packArgb8 (p : Pixel) : Byte :=
  toByte (64 * (p.a.toNat / 64) + 16 * (p.r.toNat / 64) + 4 * (p.g.toNat / 64) + p.b.toNat / 64)

/-- The pixel of a packed-ARGB8 byte (44_decoder_pipeline.md R266). -/
def unpackArgb8 (c : Byte) : Pixel where
  r := levelValue (c.toNat / 16 % 4)
  g := levelValue (c.toNat / 4 % 4)
  b := levelValue (c.toNat % 4)
  a := levelValue (c.toNat / 64)

/-- `MONO_MAP(c)`, where it is defined (00_scope.md R11). -/
def monoOf (cfg : Config) (c : Byte) : Option Byte :=
  match cfg.monoMap.lookup c with
  | some true => some 255
  | some false => some 0
  | none => none

/-- `v < 2^VBITS` (00_scope.md R11); true of every value when `VBITS` is infinite. -/
def fitsVBits (cfg : Config) (v : Nat) : Bool :=
  match cfg.vbits with
  | none => true
  | some b => decide (v < 2 ^ b)

/-- Pixel `i` of a padded grid stands at an odd place of the checkerboard: `(x XOR y) mod 2 = 1`
(41_pixel_classifier_quantizer.md R182), with `i = y·PW + x`. -/
def oddPlace (pw i : Nat) : Bool := ((i % pw) ^^^ (i / pw)) % 2 = 1

/-- Cutting a row-major list into `h` rows of `inW` elements and replacing each row (00_scope.md R14). -/
def mapRows {α β : Type} (inW : Nat) (f : List α → List β) : Nat → List α → List β
  | 0, _ => []
  | h + 1, l => f (l.take inW) ++ mapRows inW f h (l.drop inW)

end Sys2Proof.Machine
end

