-- ==== Sys2Proof/Machine/Pix.lean ====
section
/-! DEFINITION. The pixel-format classifier, the quantizer and the stream generators
(41_pixel_classifier_quantizer.md). -/

namespace Sys2Proof.Machine

/-- Pre-clean of one pixel: all channels 0 where alpha is 0 (R171). -/
def cleanPixel (p : Pixel) : Pixel := if p.a = 0 then ⟨0, 0, 0, 0⟩ else p

/-- Quantizing one channel (R172). -/
def quantChannel (cfg : Config) (c : Byte) : Byte := levelValue (level cfg c)

/-- Quantizing all four channels of a pixel (R172). -/
def quantPixel (cfg : Config) (p : Pixel) : Pixel where
  r := quantChannel cfg p.r
  g := quantChannel cfg p.g
  b := quantChannel cfg p.b
  a := quantChannel cfg p.a

/-- The scan of R175 from the colours `pal` met so far: the distinct colours in order of first occurrence, and whether
a 17th would appear, which stops the scan. -/
def countColors : List Byte → List Byte → List Byte × Bool
  | pal, [] => (pal, false)
  | pal, c :: cs =>
    if c ∈ pal then countColors pal cs
    else if pal.length = 16 then (pal, true)
    else countColors (pal ++ [c]) cs

/-- The palette in the instance's `PALETTE_ORDER` (R175): `pal` is in order of first occurrence. -/
def orderPalette (cfg : Config) (pk pal : List Byte) : List Byte :=
  match cfg.paletteOrder with
  | .firstOccurrence => pal
  | .arbitrary => if (Config.orderOf pk).isPerm pal then Config.orderOf pk else pal

/-- `classify(variant, many, pal)` (R176). -/
def classify (cfg : Config) (var : BitVec 1) (many : Bool) (pal : List Byte) : Except FaultCode Nat :=
  if var = 1 then
    if many then .ok 1
    else if ∀ c ∈ pal, c = 0xC0 ∨ c = 0xFF then .ok 0
    else if pal.length ≤ 2 then .ok 2
    else if pal.length ≤ 4 then .ok 3
    else .ok 4
  else if many = false ∧ ∀ c ∈ pal, (monoOf cfg c).isSome = true then .ok 0
  else .error .notMonochrome

/-- `paddedWidth(f, w)` (R178). -/
def paddedWidth (f w : Nat) : Nat :=
  let pw := ceilDiv w (pixelsPerByte f) * pixelsPerByte f
  if f = 0 then ceilDiv pw 32 * 32 else pw

/-- The index of colour `c` in the palette (R181), where `c` stands in it. A colour that stands in it more than once
has a free index among those (DESIGN CHOICE, log 10). -/
def paletteIndex (pal : List Byte) (c : Byte) : Nat :=
  if pal.count c ≤ 1 then pal.idxOf c
  else if pal[Config.repeatedIndex pal c]? = some c then Config.repeatedIndex pal c
  else pal.idxOf c

/-- A palette index as an element of `STR`; free where a byte cannot hold it (DESIGN CHOICE, log 11). -/
def indexByte (i : Nat) : Byte := if i < 256 then toByte i else Config.wideIndexByte i

/-- A row of pixels padded with value 0 to `pw` (R180, R181). -/
def padRow (w pw : Nat) (f : Byte → Byte) (row : List Byte) : List Byte := row.map f ++ List.replicate (pw - w) 0

/-- `PIX.CLEAN` (R171). -/
def opPixClean (s : State) : Except FaultCode State := do
  let img ← s.mem.img.read
  return s.setWimg (img.map cleanPixel)

/-- `PIX.QUANT` (R172). -/
def opPixQuant (s : State) : Except FaultCode State := do
  let wimg ← s.mem.wimg.read
  return s.setWimg (wimg.map (quantPixel s.cfg))

/-- `PIX.PACK8` (R174). -/
def opPixPack8 (s : State) : Except FaultCode State := do
  let wimg ← s.mem.wimg.read
  return s.setPk (wimg.map packArgb8)

/-- `CLS.COUNT` (R175). -/
def opClsCount (s : State) : Except FaultCode State := do
  let pk ← s.mem.pk.read
  return (s.setPal (orderPalette s.cfg pk (countColors [] pk).1)).setTooMany (countColors [] pk).2

/-- `CLS.FMT` (R177). -/
def opClsFmt (s : State) : Except FaultCode State := do
  let var ← s.regs.var.read
  let pal ← s.mem.pal.read
  let w ← s.regs.w.read
  require (1 ≤ w.toNat) .zeroArea
  require (s.tooMany = true ∨ 1 ≤ pal.length) .zeroArea
  let f ← classify s.cfg var s.tooMany pal
  let t := (s.setFmt (BitVec.ofNat 8 f)).setPw (BitVec.ofNat 9 (paddedWidth f w.toNat))
  return if 1 ≤ f then t.setVn (BitVec.ofNat 4 (valueWidth f)) else t

/-- `GEN.MONO` (R180). -/
def opGenMono (s : State) : Except FaultCode State := do
  let pk ← s.mem.pk.read
  let w ← s.regs.w.read
  let h ← s.regs.h.read
  let pw ← s.regs.pw.read
  let fmt ← s.regs.fmt.read
  require (1 ≤ w.toNat ∧ 1 ≤ h.toNat ∧ 1 ≤ pw.toNat) .zeroArea
  require (fmt = 0 ∧ w.toNat ≤ pw.toNat ∧ pk.length = w.toNat * h.toNat) .operandShape
  require (∀ c ∈ pk, (monoOf s.cfg c).isSome = true) .notMonochrome
  return s.setStr (mapRows w.toNat (padRow w.toNat pw.toNat (fun c => (monoOf s.cfg c).getD 0))
    h.toNat pk)

/-- `GEN.VAL` (R181). -/
def opGenVal (s : State) : Except FaultCode State := do
  let pk ← s.mem.pk.read
  let fmt ← s.regs.fmt.read
  let w ← s.regs.w.read
  let h ← s.regs.h.read
  let pw ← s.regs.pw.read
  let pal ← s.mem.pal.readIf (2 ≤ fmt.toNat) []
  require (1 ≤ w.toNat ∧ 1 ≤ h.toNat ∧ 1 ≤ pw.toNat) .zeroArea
  require ((1 ≤ fmt.toNat ∧ fmt.toNat ≤ 4) ∧ w.toNat ≤ pw.toNat ∧ pk.length = w.toNat * h.toNat) .operandShape
  require (2 ≤ fmt.toNat → ∀ c ∈ pk, c ∈ pal) .operandShape
  let val := fun c => if fmt.toNat = 1 then c else indexByte (paletteIndex pal c)
  return s.setStr (mapRows w.toNat (padRow w.toNat pw.toNat val) h.toNat pk)

/-- The checkerboard toggle of R182 on a stream whose rows are `pw` wide. -/
def unscreen (pw : Nat) (str : List Byte) : List Byte :=
  str.zipIdx.map (fun e => if oddPlace pw e.2 then e.1 ^^^ 255 else e.1)

/-- `GEN.UNSCR` (R182). -/
def opGenUnscr (s : State) : Except FaultCode State := do
  let str ← s.mem.str.read
  let pw ← s.regs.pw.read
  let h ← s.regs.h.read
  require (1 ≤ pw.toNat ∧ 1 ≤ h.toNat) .zeroArea
  require (str.length = pw.toNat * h.toNat) .operandShape
  return s.setStr (unscreen pw.toNat str)

def execPixClean (s : State) : Host.Outcome State Fault Refusal := runOp .pixClean opPixClean s

def execPixQuant (s : State) : Host.Outcome State Fault Refusal := runOp .pixQuant opPixQuant s

def execPixPack8 (s : State) : Host.Outcome State Fault Refusal := runOp .pixPack8 opPixPack8 s

def execClsCount (s : State) : Host.Outcome State Fault Refusal := runOp .clsCount opClsCount s

def execClsFmt (s : State) : Host.Outcome State Fault Refusal := runOp .clsFmt opClsFmt s

def execGenMono (s : State) : Host.Outcome State Fault Refusal := runOp .genMono opGenMono s

def execGenVal (s : State) : Host.Outcome State Fault Refusal := runOp .genVal opGenVal s

def execGenUnscr (s : State) : Host.Outcome State Fault Refusal := runOp .genUnscr opGenUnscr s

end Sys2Proof.Machine
end

