-- ==== Sys2Proof/Machine/Rle.lean ====
section
/-! DEFINITION. The run-length encoder and expander (42_run_length.md). -/

namespace Sys2Proof.Machine

/-- The loop of R213: `cur` is the value of the current run, `cnt` its length so far. -/
def runsFrom (cur : Byte) : Nat → List Byte → List Nat
  | cnt, [] => [cnt]
  | cnt, x :: xs => if x = cur then runsFrom cur (cnt + 1) xs else cnt :: runsFrom x 1 xs

/-- `runsBinary(s)`, the phantom pixel counted in the first run (R211, R213). -/
def runsBinary (xs : List Byte) : List Nat := runsFrom 0 1 xs

/-- The loop of R215: `cur` is the value of the current run, `cnt` its length so far. -/
def pairsFrom (cur : Byte) : Nat → List Byte → List (Byte × Nat)
  | cnt, [] => [(cur, cnt)]
  | cnt, x :: xs => if x = cur then pairsFrom cur (cnt + 1) xs else (cur, cnt) :: pairsFrom x 1 xs

/-- The `(value, run length)` pairs of a stream (R215). -/
def runPairs (xs : List Byte) : List (Byte × Nat) :=
  match xs with
  | [] => []
  | x :: xs => pairsFrom x 1 xs

/-- `runsMulti(s)`, the values and the runs (R215). -/
def runsMulti (xs : List Byte) : List Byte × List Nat := ((runPairs xs).map Prod.fst, (runPairs xs).map Prod.snd)

/-- Expanding alternating runs, the first of value `c`, the values 0 and 1 (R216). -/
def expandBinary (c : Byte) : List Nat → List Byte
  | [] => []
  | r :: rs => List.replicate r c ++ expandBinary (1 - c) rs

/-- Expanding values with their runs (R217). -/
def expandMulti : List Byte → List Nat → List Byte
  | v :: vs, r :: rs => List.replicate r v ++ expandMulti vs rs
  | _, _ => []

/-- `RLE.BIN` (R212). -/
def opRleBin (s : State) : Except FaultCode State := do
  let str ← s.mem.str.read
  require (∀ x ∈ str, x = 0 ∨ x = 255) .operandShape
  return s.setRun (runsBinary str)

/-- `RLE.MV` (R214). -/
def opRleMv (s : State) : Except FaultCode State := do
  let str ← s.mem.str.read
  return (s.setRun (runsMulti str).2).setVals (runsMulti str).1

/-- `RLX.BIN` (R216). -/
def opRlxBin (s : State) : Except FaultCode State := do
  let run ← s.mem.run.read
  let pw ← s.regs.pw.read
  let h ← s.regs.h.read
  require (1 ≤ pw.toNat ∧ 1 ≤ h.toNat) .zeroArea
  require (∀ r ∈ run, 1 ≤ r) .zeroValue
  require (run.sum = pw.toNat * h.toNat + 1) .malformedContainer
  return s.setStr ((expandBinary 0 run).drop 1)

/-- `RLX.MV` (R217). -/
def opRlxMv (s : State) : Except FaultCode State := do
  let run ← s.mem.run.read
  let vals ← s.mem.vals.read
  let pw ← s.regs.pw.read
  let h ← s.regs.h.read
  require (1 ≤ pw.toNat ∧ 1 ≤ h.toNat) .zeroArea
  require (∀ r ∈ run, 1 ≤ r) .zeroValue
  require (vals.length = run.length) .malformedContainer
  require (run.sum = pw.toNat * h.toNat) .malformedContainer
  return s.setStr (expandMulti vals run)

def execRleBin (s : State) : Host.Outcome State Fault Refusal := runOp .rleBin opRleBin s

def execRleMv (s : State) : Host.Outcome State Fault Refusal := runOp .rleMv opRleMv s

def execRlxBin (s : State) : Host.Outcome State Fault Refusal := runOp .rlxBin opRlxBin s

def execRlxMv (s : State) : Host.Outcome State Fault Refusal := runOp .rlxMv opRlxMv s

end Sys2Proof.Machine
end

