-- ==== Sys2Proof/Machine/Vwi.lean ====
section
/-! DEFINITION. The variable-width integer codec and the bitstream chunker (40_vwi_codec_and_chunker.md). Each `op`
definition is the operation's effect or its fault, as its rule's pseudocode gives them; the composites run the same
definitions. Each `exec` definition is the operation as a command. -/

namespace Sys2Proof.Machine

/-- `chop(v, n)` (R132). -/
def chop (v n : Nat) : List Nat :=
  let k := ceilDiv (bitlength v) n
  List.replicate (k - 1) 0 ++ (List.range k).reverse.map (fun i => v / 2 ^ (n * i) % 2 ^ n)

/-- Packing groups of `n` bits, most significant bit first, into a byte of which `used` bits are filled and have the
value `acc`; a last byte that is not full gets zero bits below (R134). -/
def packFrom (n : Nat) : Nat → Nat → List Nat → List Byte
  | used, acc, [] => if used = 0 then [] else [toByte (acc * 2 ^ (8 - used))]
  | used, acc, g :: gs =>
    if used + n = 8 then toByte (acc * 2 ^ n + g) :: packFrom n 0 0 gs
    else packFrom n (used + n) (acc * 2 ^ n + g) gs

/-- `packGroups(gs, n)` (R134, 30_encoding.md R101). -/
def packGroups (gs : List Nat) (n : Nat) : List Byte := packFrom n 0 0 gs

/-- `group(B, p, n)` (R135). -/
def group (B : List Byte) (p n : Nat) : Nat := groupAt (B.getD (p / 8) 0) (p % 8) n

/-- The `8 / n` groups of a byte, in reading order. -/
def byteGroups (n : Nat) (b : Byte) : List Nat := (List.range (8 / n)).map (fun j => groupAt b (j * n) n)

/-- All groups of a byte list in reading order: element `j` is `group(B, j·n, n)` (lemma `groupsOf_getElem`). -/
def groupsOf (n : Nat) (B : List Byte) : List Nat := B.flatMap (byteGroups n)

/-- The groups from bit position `p`, a multiple of `n`, up to the end of byte `E - 1`. -/
def groupsFrom (B : List Byte) (E p n : Nat) : List Nat := (groupsOf n (B.take E)).drop (p / n)

/-- What reading one integer from a list of groups gives: a value, how many groups its code took and the groups after
it; or the end of the stream; or a code cut off by the end. -/
inductive Scan where
  | value (v : Nat) (used : Nat) (rest : List Nat)
  | endOfStream
  | truncated
deriving DecidableEq, Repr

/-- The two loops of R140 over the groups ahead of the cursor, `zc` zero groups having been counted: the zero groups
up to the first other one, then that one and the `zc` after it as the value. -/
def scanFrom (n : Nat) : Nat → List Nat → Scan
  | _, [] => .endOfStream
  | zc, g :: gs =>
    if g = 0 then scanFrom n (zc + 1) gs
    else if ((g :: gs).take (zc + 1)).length < zc + 1 then .truncated
    else .value (groupsValue n ((g :: gs).take (zc + 1))) (2 * zc + 1) ((g :: gs).drop (zc + 1))

/-- The three answers of `nextValue` (R140). -/
inductive Next where
  | value (v : Nat) (p : Nat)
  | endOfStream (p : Nat)
  | truncated
deriving DecidableEq, Repr

/-- `nextValue(B, E, p, n)` (R140). -/
def nextValue (B : List Byte) (E p n : Nat) : Next :=
  match scanFrom n 0 (groupsFrom B E p n) with
  | .value v used _ => .value v (p + used * n)
  | .endOfStream => .endOfStream (8 * E)
  | .truncated => .truncated

/-- The groups of the codes of a sequence, one code after the other (R141). -/
def chopAll (seq : List Nat) (n : Nat) : List Nat := seq.flatMap (fun v => chop v n)

/-- `packSeq(seq, n)` (R141). -/
def packSeq (seq : List Nat) (n : Nat) : List Byte := packGroups (chopAll seq n) n

/-- Reading integers until the groups end, at most `fuel` of them; every integer takes at least one group. `none` is
`Truncated`. -/
def scanAll (n : Nat) : Nat → List Nat → Option (List Nat)
  | 0, _ => some []
  | fuel + 1, gs =>
    match scanFrom n 0 gs with
    | .value v _ rest => (scanAll n fuel rest).map (fun vs => v :: vs)
    | .endOfStream => some []
    | .truncated => none

/-- `unpackSeq(B, S, E, n)` (R141); `none` is `Truncated`. -/
def unpackSeq (B : List Byte) (S E n : Nat) : Option (List Nat) :=
  scanAll n (groupsFrom B E (8 * S) n).length (groupsFrom B E (8 * S) n)

/-- `VWI.ENC` (R133). -/
def opVwiEnc (s : State) : Except FaultCode State := do
  let v ← s.regs.v.read
  let n ← s.regs.n.read
  require (isChunkWidth n.toNat) .badChunkWidth
  require (1 ≤ v) .zeroValue
  return s.setSym (chop v n.toNat)

/-- `VWI.DEC` (R139). -/
def opVwiDec (s : State) : Except FaultCode State := do
  let buf ← s.mem.buf.read
  let re ← s.regs.re.read
  let si ← s.regs.si.read
  let bi ← s.regs.bi.read
  let n ← s.regs.n.read
  require (isChunkWidth n.toNat) .badChunkWidth
  require (re.toNat ≤ buf.length) .cursorRange
  require (si.toNat < re.toNat ∨ (si = re ∧ bi = 0)) .cursorRange
  require (bi.toNat % n.toNat = 0) .cursorRange
  match nextValue buf re.toNat (8 * si.toNat + bi.toNat) n.toNat with
  | .value v p =>
    require (fitsVBits s.cfg v = true) .valueTooWide
    return (s.setV v).setCursor (p / 8) (p % 8) false
  | .endOfStream _ => return (s.setV 0).setCursor re.toNat 0 true
  | .truncated => .error .malformedContainer

/-- `CHK.PACK` (R136). -/
def opChkPack (s : State) : Except FaultCode State := do
  let sym ← s.mem.sym.read
  let n ← s.regs.n.read
  require (isChunkWidth n.toNat) .badChunkWidth
  require (∀ g ∈ sym, g < 2 ^ n.toNat) .symbolRange
  return s.setRleb (packGroups sym n.toNat)

/-- `CHK.GET` (R138). -/
def opChkGet (s : State) : Except FaultCode State := do
  let buf ← s.mem.buf.read
  let re ← s.regs.re.read
  let si ← s.regs.si.read
  let bi ← s.regs.bi.read
  let n ← s.regs.n.read
  require (isChunkWidth n.toNat) .badChunkWidth
  require (re.toNat ≤ buf.length) .cursorRange
  require (si.toNat < re.toNat ∨ (si = re ∧ bi = 0)) .cursorRange
  require (bi.toNat % n.toNat = 0) .cursorRange
  if si = re then
    return (s.setV 0).setCursor si.toNat bi.toNat true
  else
    let v := group buf (8 * si.toNat + bi.toNat) n.toNat
    if bi.toNat + n.toNat = 8 then
      return (s.setV v).setCursor (si.toNat + 1) 0 false
    else
      return (s.setV v).setCursor si.toNat (bi.toNat + n.toNat) false

/-- `SEQ.PACK` (R142). -/
def opSeqPack (s : State) : Except FaultCode State := do
  let run ← s.mem.run.read
  let n ← s.regs.n.read
  require (isChunkWidth n.toNat) .badChunkWidth
  require (∀ r ∈ run, 1 ≤ r) .zeroValue
  return s.setRleb (packSeq run n.toNat)

/-- `SEQ.UNPACK` (R143). -/
def opSeqUnpack (s : State) : Except FaultCode State := do
  let buf ← s.mem.buf.read
  let rb ← s.regs.rb.read
  let re ← s.regs.re.read
  let n ← s.regs.n.read
  require (isChunkWidth n.toNat) .badChunkWidth
  require (rb.toNat ≤ re.toNat ∧ re.toNat ≤ buf.length) .cursorRange
  match unpackSeq buf rb.toNat re.toNat n.toNat with
  | none => .error .malformedContainer
  | some r =>
    require (∀ v ∈ r, fitsVBits s.cfg v = true) .valueTooWide
    return (s.setRun r).setCursor re.toNat 0 true

/-- `FIX.PACK` (R145). -/
def opFixPack (s : State) : Except FaultCode State := do
  let vals ← s.mem.vals.read
  let vn ← s.regs.vn.read
  require (isChunkWidth vn.toNat) .badChunkWidth
  require (∀ x ∈ vals, x.toNat < 2 ^ vn.toNat) .symbolRange
  return s.setValb (packGroups (vals.map BitVec.toNat) vn.toNat)

/-- `FIX.UNPACK` (R146). -/
def opFixUnpack (s : State) : Except FaultCode State := do
  let buf ← s.mem.buf.read
  let rb ← s.regs.rb.read
  let re ← s.regs.re.read
  let vn ← s.regs.vn.read
  let run ← s.mem.run.read
  require (isChunkWidth vn.toNat) .badChunkWidth
  require (rb.toNat ≤ re.toNat ∧ re.toNat ≤ buf.length) .cursorRange
  require (re.toNat - rb.toNat = ceilDiv (run.length * vn.toNat) 8) .malformedContainer
  return s.setVals (((groupsFrom buf re.toNat (8 * rb.toNat) vn.toNat).take run.length).map toByte)

/-- `CUR.SET` (R137). -/
def opCurSet (s : State) : Except FaultCode State := do
  let buf ← s.mem.buf.read
  let rb ← s.regs.rb.read
  let re ← s.regs.re.read
  require (rb.toNat ≤ re.toNat ∧ re.toNat ≤ buf.length) .cursorRange
  return s.setCursor rb.toNat 0 false

def execVwiEnc (s : State) : Host.Outcome State Fault Refusal := runOp .vwiEnc opVwiEnc s

def execVwiDec (s : State) : Host.Outcome State Fault Refusal := runOp .vwiDec opVwiDec s

def execChkPack (s : State) : Host.Outcome State Fault Refusal := runOp .chkPack opChkPack s

def execChkGet (s : State) : Host.Outcome State Fault Refusal := runOp .chkGet opChkGet s

def execSeqPack (s : State) : Host.Outcome State Fault Refusal := runOp .seqPack opSeqPack s

def execSeqUnpack (s : State) : Host.Outcome State Fault Refusal := runOp .seqUnpack opSeqUnpack s

def execFixPack (s : State) : Host.Outcome State Fault Refusal := runOp .fixPack opFixPack s

def execFixUnpack (s : State) : Host.Outcome State Fault Refusal := runOp .fixUnpack opFixUnpack s

def execCurSet (s : State) : Host.Outcome State Fault Refusal := runOp .curSet opCurSet s

end Sys2Proof.Machine
end

