-- ==== Sys2Proof/Machine/Cnt.lean ====
section
/-! DEFINITION. The parameter search, the container assembler and the composite `ENCODE`
(43_container_encoder.md). -/

namespace Sys2Proof.Machine

/-- A candidate of the search, before it is packed (R231). -/
structure Candidate where
  n : Nat
  us : BitVec 1
  seq : List Nat
deriving DecidableEq, Repr

/-- A verified candidate: its chunk width, its flag and its bytes. -/
structure Packed where
  n : Nat
  us : BitVec 1
  bytes : List Byte
deriving DecidableEq, Repr

/-- Packing a candidate and verifying it through the decoder (R233). -/
def packCandidate (c : Candidate) : Except FaultCode Packed := do
  let b := packSeq c.seq c.n
  require (unpackSeq b 0 b.length c.n = some c.seq) .encodeIntegrityError
  return ⟨c.n, c.us, b⟩

/-- The loop of R232 over the candidates after the first: a later one replaces the best only if its byte count is
strictly smaller (R234). -/
def searchFrom (best : Packed) : List Candidate → Except FaultCode Packed
  | [] => .ok best
  | c :: cs => do
    let p ← packCandidate c
    searchFrom (if p.bytes.length < best.bytes.length then p else best) cs

/-- The search of R232: the four plain widths in order, then `fifth` (R231). -/
def search (run : List Nat) (fifth : List Candidate) : Except FaultCode Packed := do
  let first ← packCandidate ⟨1, 0, run⟩
  searchFrom first ([⟨2, 0, run⟩, ⟨4, 0, run⟩, ⟨8, 0, run⟩] ++ fifth)

/-- Whether the fifth candidate exists: `FMT = 0` and `UNSCREEN_POLICY ≠ off` (R231). -/
abbrev screened (cfg : Config) (fmt : Nat) : Prop := fmt = 0 ∧ cfg.unscreen ≠ .off

/-- `CNT.SEARCH` (R232). -/
def opCntSearch (s : State) : Except FaultCode State := do
  let fmt ← s.regs.fmt.read
  let run ← s.mem.run.read
  let str ← s.mem.str.readIf (screened s.cfg fmt.toNat) []
  let pw ← s.regs.pw.readIf (screened s.cfg fmt.toNat) 0
  let h ← s.regs.h.readIf (screened s.cfg fmt.toNat) 0
  require (fmt.toNat ≤ 4) .operandShape
  require (∀ r ∈ run, 1 ≤ r) .zeroValue
  require (screened s.cfg fmt.toNat → 1 ≤ pw.toNat ∧ 1 ≤ h.toNat) .zeroArea
  require (screened s.cfg fmt.toNat → str.length = pw.toNat * h.toNat ∧ ∀ x ∈ str, x = 0 ∨ x = 255)
    .operandShape
  let fifth := if screened s.cfg fmt.toNat then [⟨1, 1, runsBinary (unscreen pw.toNat str)⟩] else []
  let best ← search run fifth
  return ((s.setN (BitVec.ofNat 7 best.n)).setUs best.us).setRleb best.bytes

/-- The 8-byte header (R237, 30_encoding.md R93). -/
def headerBytes (w h n us fmt f4 f6 : Nat) : List Byte :=
  [toByte w, toByte h, chunkSpec n us, toByte fmt] ++ u16Bytes f4 ++ u16Bytes f6

/-- `CNT.ASM` (R237). Offsets never wrap (R239, 92_eei_decisions.md D22): a container whose second offset does not fit
in 16 bits is too large whatever `CONTAINER_MAX` is (DEDUCED, log 12). -/
def opCntAsm (s : State) : Except FaultCode State := do
  let w ← s.regs.w.read
  let h ← s.regs.h.read
  let n ← s.regs.n.read
  let us ← s.regs.us.read
  let fmt ← s.regs.fmt.read
  let rleb ← s.mem.rleb.read
  let vb ← s.mem.valb.readIf (1 ≤ fmt.toNat) []
  let pb ← s.mem.pal.readIf (2 ≤ fmt.toNat) []
  require (1 ≤ w.toNat ∧ 1 ≤ h.toNat) .zeroArea
  require (isChunkWidth n.toNat) .badChunkWidth
  require (fmt.toNat ≤ 4) .operandShape
  require (us = 0 ∨ fmt = 0) .operandShape
  require (paletteFits fmt.toNat pb.length) .operandShape
  let f4 := 8 + rleb.length
  let f6 := f4 + vb.length
  require (f6 + pb.length ≤ s.cfg.containerMax ∧ f6 ≤ 65535) .containerTooLarge
  return ((s.setBuf (headerBytes w.toNat h.toNat n.toNat us.toNat fmt.toNat f4 f6 ++ rleb ++ vb ++ pb)).setF4
    (BitVec.ofNat 16 f4)).setF6 (BitVec.ofNat 16 f6)

/-- The steps of `ENCODE` after the format is chosen (R240), for format 0. -/
def encodeMono (s : State) : Except FaultCode State := do
  let s ← opGenMono s
  let s ← opRleBin s
  let s ← opCntSearch s
  opCntAsm s

/-- The steps of `ENCODE` after the format is chosen (R240), for formats 1 to 4. -/
def encodeValues (s : State) : Except FaultCode State := do
  let s ← opGenVal s
  let s ← opRleMv s
  let s ← opCntSearch s
  let s ← opFixPack s
  opCntAsm s

/-- The steps of `ENCODE` up to the choice of the format (R240). -/
def encodeFront (s : State) : Except FaultCode State := do
  let s ← opPixClean s
  let s ← opPixQuant s
  let s ← opPixPack8 s
  let s ← opClsCount s
  opClsFmt s

/-- The steps of `ENCODE` after the format is chosen, by format (R240). -/
def encodeBack (fmt : BitVec 8) (s : State) : Except FaultCode State :=
  if fmt = 0 then encodeMono s else encodeValues s

/-- `ENCODE` (R240). -/
def opEncodeImage (s : State) : Except FaultCode State := do
  let img ← s.mem.img.read
  let w ← s.regs.w.read
  let h ← s.regs.h.read
  let _ ← s.regs.var.read
  require (1 ≤ w.toNat ∧ 1 ≤ h.toNat) .zeroArea
  require (img.length = w.toNat * h.toNat) .operandShape
  let s ← encodeFront s
  let fmt ← s.regs.fmt.read
  encodeBack fmt s

def execCntSearch (s : State) : Host.Outcome State Fault Refusal := runOp .cntSearch opCntSearch s

def execCntAsm (s : State) : Host.Outcome State Fault Refusal := runOp .cntAsm opCntAsm s

def execEncodeImage (s : State) : Host.Outcome State Fault Refusal := runOp .encodeImage opEncodeImage s

end Sys2Proof.Machine
end

