-- ==== Sys2Proof/Machine/Pipe.lean ====
section
/-! DEFINITION. The header parser, the palette expander, the pixel reconstruction and the composite `DECODE`
(44_decoder_pipeline.md). -/

namespace Sys2Proof.Machine

/-- `CNT.PARSE` (R261), with the tests of R262 in their order. -/
def opCntParse (s : State) : Except FaultCode State := do
  let buf ← s.mem.buf.read
  let len := buf.length
  require (8 ≤ len) .malformedContainer
  require (len ≤ s.cfg.containerMax) .containerTooLarge
  let w := memRead1 buf 0
  let h := memRead1 buf 1
  let cs := memRead1 buf 2
  let f := memRead1 buf 3
  let f4 := memRead2 buf 4
  let f6 := memRead2 buf 6
  require (f ≤ 4) .malformedContainer
  require (isChunkWidth (cs % 128)) .malformedContainer
  require (8 ≤ f4 ∧ f4 ≤ f6 ∧ f6 ≤ len) .malformedContainer
  require (f = 0 → f4 = f6 ∧ f6 = len) .malformedContainer
  require (f = 1 → f6 = len) .malformedContainer
  require (paletteFits f (len - f6)) .malformedContainer
  require (1 ≤ w ∧ 1 ≤ h) .zeroArea
  let t := ((((((s.setW (BitVec.ofNat 8 w)).setH (BitVec.ofNat 8 h)).setN (BitVec.ofNat 7 (cs % 128))).setUs
    (BitVec.ofNat 1 (cs / 128))).setFmt (BitVec.ofNat 8 f)).setF4 (BitVec.ofNat 16 f4)).setF6 (BitVec.ofNat 16 f6)
  let t := t.setPw (BitVec.ofNat 9 (paddedWidth f w))
  let t := if 1 ≤ f then t.setVn (BitVec.ofNat 4 (valueWidth f)) else t
  let t := ((t.setPal (buf.drop f6)).setRb 8).setRe (BitVec.ofNat 17 f4)
  return t.setCursor 8 0 false

/-- The inverse toggle on a stream over `{0, 1}` whose rows are `pw` wide (R265). -/
def rescreen (pw : Nat) (str : List Byte) : List Byte :=
  str.zipIdx.map (fun e => if oddPlace pw e.2 then 1 - e.1 else e.1)

/-- `PIX.RESCR` (R265). -/
def opPixRescr (s : State) : Except FaultCode State := do
  let str ← s.mem.str.read
  let pw ← s.regs.pw.read
  let h ← s.regs.h.read
  require (1 ≤ pw.toNat ∧ 1 ≤ h.toNat) .zeroArea
  require (str.length = pw.toNat * h.toNat) .operandShape
  require (∀ x ∈ str, x = 0 ∨ x = 1) .operandShape
  return s.setStr (rescreen pw.toNat str)

/-- Opaque black for 0, opaque white for 1 (R266). -/
def monoPixel (x : Byte) : Pixel := if x = 0 then ⟨0, 0, 0, 255⟩ else ⟨255, 255, 255, 255⟩

/-- The pixel an element of `STR` stands for in format `f` (R266). -/
def expandPixel (f : Nat) (pal : List Byte) (x : Byte) : Pixel :=
  match f with
  | 0 => monoPixel x
  | 1 => unpackArgb8 x
  | _ => unpackArgb8 (pal.getD x.toNat 0)

/-- `PAL.EXPAND` (R266). -/
def opPalExpand (s : State) : Except FaultCode State := do
  let str ← s.mem.str.read
  let fmt ← s.regs.fmt.read
  let pw ← s.regs.pw.read
  let h ← s.regs.h.read
  let pal ← s.mem.pal.readIf (2 ≤ fmt.toNat) []
  require (1 ≤ pw.toNat ∧ 1 ≤ h.toNat) .zeroArea
  require (fmt.toNat ≤ 4 ∧ str.length = pw.toNat * h.toNat) .operandShape
  require (fmt = 0 → ∀ x ∈ str, x = 0 ∨ x = 1) .operandShape
  require (paletteFits fmt.toNat pal.length) .operandShape
  require (2 ≤ fmt.toNat → ∀ x ∈ str, x.toNat < pal.length) .malformedContainer
  return s.setPimg (str.map (expandPixel fmt.toNat pal))

/-- `PIX.CROP` (R267). -/
def opPixCrop (s : State) : Except FaultCode State := do
  let pimg ← s.mem.pimg.read
  let w ← s.regs.w.read
  let h ← s.regs.h.read
  let pw ← s.regs.pw.read
  require (1 ≤ w.toNat ∧ 1 ≤ h.toNat ∧ 1 ≤ pw.toNat) .zeroArea
  require (w.toNat ≤ pw.toNat ∧ pimg.length = pw.toNat * h.toNat) .operandShape
  return s.setImg (mapRows pw.toNat (fun row => row.take w.toNat) h.toNat pimg)

/-- The steps of `DECODE` between the run lengths and the expander (R268), for format 0. -/
def decodeMono (s : State) : Except FaultCode State := do
  let us ← s.regs.us.read
  let s ← opRlxBin s
  if us = 1 ∧ s.cfg.unscreen = .symmetric then opPixRescr s else return s

/-- The steps of `DECODE` between the run lengths and the expander (R268), for formats 1 to 4: the window moves to the
values region. -/
def decodeValues (s : State) : Except FaultCode State := do
  let f4 ← s.regs.f4.read
  let f6 ← s.regs.f6.read
  let s ← opFixUnpack ((s.setRb (f4.setWidth 17)).setRe (f6.setWidth 17))
  opRlxMv s

/-- The steps of `DECODE` between the run lengths and the expander, by format (R268). -/
def decodeStream (fmt : BitVec 8) (s : State) : Except FaultCode State :=
  if fmt = 0 then decodeMono s else decodeValues s

/-- `DECODE` (R268). -/
def opDecodeImage (s : State) : Except FaultCode State := do
  let s ← opCntParse s
  let fmt ← s.regs.fmt.read
  let us ← s.regs.us.read
  require (¬(fmt = 0 ∧ us = 1 ∧ s.cfg.unscreen = .off)) .unscreenUnsupported
  let s ← opSeqUnpack s
  let s ← decodeStream fmt s
  let s ← opPalExpand s
  opPixCrop s

def execCntParse (s : State) : Host.Outcome State Fault Refusal := runOp .cntParse opCntParse s

def execPixRescr (s : State) : Host.Outcome State Fault Refusal := runOp .pixRescr opPixRescr s

def execPalExpand (s : State) : Host.Outcome State Fault Refusal := runOp .palExpand opPalExpand s

def execPixCrop (s : State) : Host.Outcome State Fault Refusal := runOp .pixCrop opPixCrop s

def execDecodeImage (s : State) : Host.Outcome State Fault Refusal := runOp .decodeImage opDecodeImage s

end Sys2Proof.Machine
end

