-- ==== Sys2Proof/Machine/System.lean ====
section
/-! DEFINITION. The system operation (60_exceptions.md). -/

namespace Sys2Proof.Machine

/-- `SYS.RESET` (60_exceptions.md R325): it executes whatever `FAULT` holds (R306 item 1) and raises nothing. -/
def execSysReset (s : State) : Host.Outcome State Fault Refusal := .next (resetBlock s)

end Sys2Proof.Machine
end

