-- ==== Sys2Proof/Machine/Dispatch.lean ====
section
/-! DEFINITION. The operation a decoded command executes: one arm per constructor of Instr. -/

namespace Sys2Proof.Machine

def exec (i : Instr) (s : State) : Host.Outcome State Fault Refusal :=
  match i with
  | .sysReset => Sys2Proof.Machine.execSysReset s
  | .vwiEnc => Sys2Proof.Machine.execVwiEnc s
  | .vwiDec => Sys2Proof.Machine.execVwiDec s
  | .chkPack => Sys2Proof.Machine.execChkPack s
  | .chkGet => Sys2Proof.Machine.execChkGet s
  | .seqPack => Sys2Proof.Machine.execSeqPack s
  | .seqUnpack => Sys2Proof.Machine.execSeqUnpack s
  | .fixPack => Sys2Proof.Machine.execFixPack s
  | .fixUnpack => Sys2Proof.Machine.execFixUnpack s
  | .curSet => Sys2Proof.Machine.execCurSet s
  | .pixClean => Sys2Proof.Machine.execPixClean s
  | .pixQuant => Sys2Proof.Machine.execPixQuant s
  | .pixPack8 => Sys2Proof.Machine.execPixPack8 s
  | .clsCount => Sys2Proof.Machine.execClsCount s
  | .clsFmt => Sys2Proof.Machine.execClsFmt s
  | .genMono => Sys2Proof.Machine.execGenMono s
  | .genVal => Sys2Proof.Machine.execGenVal s
  | .genUnscr => Sys2Proof.Machine.execGenUnscr s
  | .rleBin => Sys2Proof.Machine.execRleBin s
  | .rleMv => Sys2Proof.Machine.execRleMv s
  | .rlxBin => Sys2Proof.Machine.execRlxBin s
  | .rlxMv => Sys2Proof.Machine.execRlxMv s
  | .cntSearch => Sys2Proof.Machine.execCntSearch s
  | .cntAsm => Sys2Proof.Machine.execCntAsm s
  | .encodeImage => Sys2Proof.Machine.execEncodeImage s
  | .cntParse => Sys2Proof.Machine.execCntParse s
  | .pixRescr => Sys2Proof.Machine.execPixRescr s
  | .palExpand => Sys2Proof.Machine.execPalExpand s
  | .pixCrop => Sys2Proof.Machine.execPixCrop s
  | .decodeImage => Sys2Proof.Machine.execDecodeImage s

end Sys2Proof.Machine
end

