-- ==== Sys2Proof/Machine/Port.lean ====
section
/-! DEFINITION. The moves of the host (70_reset_and_hazards.md R360, R361) and the reset event (R350), made one at a
time between operations (20_memory.md R70). -/

namespace Sys2Proof.Machine

/-- A write of a scalar register sets its valid bit (10_state.md R22). `V` is `VBITS` bits wide (R21): a wider value
is no value of the register (DEDUCED, log 6). -/
def hostSet (x : RegWrite) (s : State) : Host.Outcome State Fault Refusal :=
  match x with
  | .v x => if fitsVBits s.cfg x = true then .next (s.setV x) else .refused .writeWiderThanV
  | .n x => .next (s.setN x)
  | .vn x => .next (s.setVn x)
  | .w x => .next (s.setW x)
  | .h x => .next (s.setH x)
  | .pw x => .next (s.setPw x)
  | .fmt x => .next (s.setFmt x)
  | .var x => .next (s.setVar x)
  | .us x => .next (s.setUs x)
  | .f4 x => .next (s.setF4 x)
  | .f6 x => .next (s.setF6 x)
  | .rb x => .next (s.setRb x)
  | .re x => .next (s.setRe x)
  | .si x => .next (s.setSi x)
  | .bi x => .next (s.setBi x)

/-- A write of a whole buffer sets its length and its valid bit (R360). -/
def hostLoad (x : BufWrite) (s : State) : State :=
  match x with
  | .img xs => s.setImg xs
  | .wimg xs => s.setWimg xs
  | .pk xs => s.setPk xs
  | .pal xs => s.setPal xs
  | .str xs => s.setStr xs
  | .run xs => s.setRun xs
  | .vals xs => s.setVals xs
  | .sym xs => s.setSym xs
  | .rleb xs => s.setRleb xs
  | .valb xs => s.setValb xs
  | .buf xs => s.setBuf xs
  | .pimg xs => s.setPimg xs

/-- A write of element `i` of the buffer `b`, which `put` stores: the length stays; a write into an invalid buffer or
beyond the length is refused (R360). -/
def pokeSlot {α : Type} (b : Slot (List α)) (i : Nat) (x : α) (put : List α → State) :
    Host.Outcome State Fault Refusal :=
  if b.valid = false then .refused .writeToInvalidBuffer
  else if i < b.val.length then .next (put (b.val.set i x))
  else .refused .writeBeyondLength

/-- A write of one element of a buffer (R360). -/
def hostPoke (x : ElemWrite) (s : State) : Host.Outcome State Fault Refusal :=
  match x with
  | .img i x => pokeSlot s.mem.img i x s.setImg
  | .wimg i x => pokeSlot s.mem.wimg i x s.setWimg
  | .pk i x => pokeSlot s.mem.pk i x s.setPk
  | .pal i x => pokeSlot s.mem.pal i x s.setPal
  | .str i x => pokeSlot s.mem.str i x s.setStr
  | .run i x => pokeSlot s.mem.run i x s.setRun
  | .vals i x => pokeSlot s.mem.vals i x s.setVals
  | .sym i x => pokeSlot s.mem.sym i x s.setSym
  | .rleb i x => pokeSlot s.mem.rleb i x s.setRleb
  | .valb i x => pokeSlot s.mem.valb i x s.setValb
  | .buf i x => pokeSlot s.mem.buf i x s.setBuf
  | .pimg i x => pokeSlot s.mem.pimg i x s.setPimg

/-- Reading a register: refused where it holds no value (R360). -/
def readReg {α : Type} (x : Slot α) (f : α → Nat) : Except Refusal HostValue :=
  if x.valid then .ok (.number (f x.val)) else .error .readOfInvalidRegister

/-- Reading a whole buffer: refused where it holds no value. -/
def readBuf {α : Type} (x : Slot (List α)) (f : List α → HostValue) : Except Refusal HostValue :=
  if x.valid then .ok (f x.val) else .error .readOfInvalidBuffer

/-- Reading one element of a buffer: refused where the buffer holds no value or has no such element (log 6). -/
def readElem {α : Type} (x : Slot (List α)) (i : Nat) (f : α → HostValue) : Except Refusal HostValue :=
  if x.valid = false then .error .readOfInvalidBuffer
  else
    match x.val[i]? with
    | some a => .ok (f a)
    | none => .error .readBeyondLength

/-- A register read by its name. -/
def hostReadReg (r : RegName) (s : State) : Except Refusal HostValue :=
  match r with
  | .v => readReg s.regs.v id
  | .n => readReg s.regs.n BitVec.toNat
  | .vn => readReg s.regs.vn BitVec.toNat
  | .w => readReg s.regs.w BitVec.toNat
  | .h => readReg s.regs.h BitVec.toNat
  | .pw => readReg s.regs.pw BitVec.toNat
  | .fmt => readReg s.regs.fmt BitVec.toNat
  | .var => readReg s.regs.var BitVec.toNat
  | .us => readReg s.regs.us BitVec.toNat
  | .f4 => readReg s.regs.f4 BitVec.toNat
  | .f6 => readReg s.regs.f6 BitVec.toNat
  | .rb => readReg s.regs.rb BitVec.toNat
  | .re => readReg s.regs.re BitVec.toNat
  | .si => readReg s.regs.si BitVec.toNat
  | .bi => readReg s.regs.bi BitVec.toNat

/-- A buffer read by its name. -/
def hostReadBuf (b : BufName) (s : State) : Except Refusal HostValue :=
  match b with
  | .img => readBuf s.mem.img .pixels
  | .wimg => readBuf s.mem.wimg .pixels
  | .pk => readBuf s.mem.pk .bytes
  | .pal => readBuf s.mem.pal .bytes
  | .str => readBuf s.mem.str .bytes
  | .run => readBuf s.mem.run .numbers
  | .vals => readBuf s.mem.vals .bytes
  | .sym => readBuf s.mem.sym .numbers
  | .rleb => readBuf s.mem.rleb .bytes
  | .valb => readBuf s.mem.valb .bytes
  | .buf => readBuf s.mem.buf .bytes
  | .pimg => readBuf s.mem.pimg .pixels

/-- An element of a buffer read by the buffer's name. -/
def hostReadElem (b : BufName) (i : Nat) (s : State) : Except Refusal HostValue :=
  match b with
  | .img => readElem s.mem.img i (fun x => .pixel x)
  | .wimg => readElem s.mem.wimg i (fun x => .pixel x)
  | .pk => readElem s.mem.pk i (fun x => .number (x.toNat))
  | .pal => readElem s.mem.pal i (fun x => .number (x.toNat))
  | .str => readElem s.mem.str i (fun x => .number (x.toNat))
  | .run => readElem s.mem.run i (fun x => .number x)
  | .vals => readElem s.mem.vals i (fun x => .number (x.toNat))
  | .sym => readElem s.mem.sym i (fun x => .number x)
  | .rleb => readElem s.mem.rleb i (fun x => .number (x.toNat))
  | .valb => readElem s.mem.valb i (fun x => .number (x.toNat))
  | .buf => readElem s.mem.buf i (fun x => .number (x.toNat))
  | .pimg => readElem s.mem.pimg i (fun x => .pixel x)

/-- What a host read answers (R360): every register, buffer, element, flag and status register; never `CMD`
(10_state.md R25). -/
def hostRead (x : HostRead) (s : State) : Except Refusal HostValue :=
  match x with
  | .reg r => hostReadReg r s
  | .buf b => hostReadBuf b s
  | .elem b i => hostReadElem b i s
  | .eos => .ok (.number s.eos.toNat)
  | .tooMany => .ok (.number s.tooMany.toNat)
  | .fault => .ok (.number s.fault.toNat)
  | .fop => .ok (.number s.fop.toNat)
  | .cmd => .error .readOfCmd

/-- A command byte that is not in the table, in the order of 60_exceptions.md R306: ignored while a fault is recorded
(R305), else `IllegalCommand` with the byte itself in `FOP` (30_encoding.md R92, R304). -/
def illegalCommand (b : Byte) (s : State) : State :=
  if s.fault ≠ 0 then s else takeFault .illegalCommand b s

/-- A write of `CMD` (10_state.md R25): the command is decoded and executed. -/
def writeCmd (b : Byte) (s : State) : Host.Outcome State Fault Refusal :=
  match decode b with
  | .ok i => exec i s
  | .error _ => .next (illegalCommand b s)

/-- One move of the host or of the platform. A read changes nothing (20_memory.md R71); the reset event has the effect
of `SYS.RESET` (R350, R351). -/
def makeMove (m : HostMove) (s : State) : Host.Outcome State Fault Refusal :=
  match m with
  | .cmd b => writeCmd b s
  | .set x => hostSet x s
  | .load x => .next (hostLoad x s)
  | .poke x => hostPoke x s
  | .read x =>
    match hostRead x s with
    | .ok _ => .next s
    | .error r => .refused r
  | .resetEvent => .next (resetBlock s)

/-- The host's next move, taken off the list of pending moves (10_state.md R26); with none pending the block holds its
state (60_exceptions.md R326, log 5). -/
def nextMove (s : State) : Host.Outcome State Fault Refusal :=
  match s.host with
  | [] => .next s
  | m :: ms => makeMove m { s with host := ms }

/-- The host's program with the command byte `b` put before its other moves (log 2). -/
def withCommand (b : Byte) (s : State) : State := { s with host := .cmd b :: s.host }

end Sys2Proof.Machine
end

