-- ==== Sys2Proof/Machine/Step.lean ====
section
/-! DEFINITION. One step of the machine: one move of the host (10_state.md R26). -/

namespace Sys2Proof.Machine

/-- One step: the next pending host move, or nothing where none is pending. -/
def step (s : State) : Host.Outcome State Fault Refusal := nextMove s

/-- The state whose very next step executes the command of `nbits` bits with the value `w`: the block fetches nothing
(10_state.md R26), so the command stands as the host's next move (log 2). -/
def State.withFetchWord (s : State) (nbits w : Nat) : State := withCommand (tableByte nbits w) s

end Sys2Proof.Machine
end

