-- ==== Sys2Proof/Safety.lean ====
section
/-! DEFINITION. The terms in which claims about the machine are stated: places and the read and write sets of every
operation (10_state.md R33), the legal fault records (60_exceptions.md R301), the invariants, sequences of commands. -/

namespace Sys2Proof.Machine

/-- A register or a buffer, by its name. -/
inductive Place where
  | reg (r : RegName)
  | buf (b : BufName)
deriving DecidableEq, Repr

/-- A place with its contents seen through `f`. -/
def Slot.map {α β : Type} (f : α → β) (x : Slot α) : Slot β := ⟨x.valid, f x.val⟩

/-- What stands in a place: its valid bit and its contents. -/
def State.place (s : State) (p : Place) : Slot HostValue :=
  match p with
  | .reg .v => s.regs.v.map .number
  | .reg .n => s.regs.n.map (fun x => .number x.toNat)
  | .reg .vn => s.regs.vn.map (fun x => .number x.toNat)
  | .reg .w => s.regs.w.map (fun x => .number x.toNat)
  | .reg .h => s.regs.h.map (fun x => .number x.toNat)
  | .reg .pw => s.regs.pw.map (fun x => .number x.toNat)
  | .reg .fmt => s.regs.fmt.map (fun x => .number x.toNat)
  | .reg .var => s.regs.var.map (fun x => .number x.toNat)
  | .reg .us => s.regs.us.map (fun x => .number x.toNat)
  | .reg .f4 => s.regs.f4.map (fun x => .number x.toNat)
  | .reg .f6 => s.regs.f6.map (fun x => .number x.toNat)
  | .reg .rb => s.regs.rb.map (fun x => .number x.toNat)
  | .reg .re => s.regs.re.map (fun x => .number x.toNat)
  | .reg .si => s.regs.si.map (fun x => .number x.toNat)
  | .reg .bi => s.regs.bi.map (fun x => .number x.toNat)
  | .buf .img => s.mem.img.map .pixels
  | .buf .wimg => s.mem.wimg.map .pixels
  | .buf .pk => s.mem.pk.map .bytes
  | .buf .pal => s.mem.pal.map .bytes
  | .buf .str => s.mem.str.map .bytes
  | .buf .run => s.mem.run.map .numbers
  | .buf .vals => s.mem.vals.map .bytes
  | .buf .sym => s.mem.sym.map .numbers
  | .buf .rleb => s.mem.rleb.map .bytes
  | .buf .valb => s.mem.valb.map .bytes
  | .buf .buf => s.mem.buf.map .bytes
  | .buf .pimg => s.mem.pimg.map .pixels

/-- The read set of an operation (10_state.md R33), the conditional part evaluated in `s` (60_exceptions.md R306
item 4). -/
def readSet (i : Instr) (s : State) : List Place :=
  match i with
  | .sysReset => []
  | .vwiEnc => [.reg .v, .reg .n]
  | .vwiDec => [.buf .buf, .reg .re, .reg .si, .reg .bi, .reg .n]
  | .chkPack => [.buf .sym, .reg .n]
  | .chkGet => [.buf .buf, .reg .re, .reg .si, .reg .bi, .reg .n]
  | .seqPack => [.buf .run, .reg .n]
  | .seqUnpack => [.buf .buf, .reg .rb, .reg .re, .reg .n]
  | .fixPack => [.buf .vals, .reg .vn]
  | .fixUnpack => [.buf .buf, .reg .rb, .reg .re, .reg .vn, .buf .run]
  | .curSet => [.buf .buf, .reg .rb, .reg .re]
  | .pixClean => [.buf .img]
  | .pixQuant => [.buf .wimg]
  | .pixPack8 => [.buf .wimg]
  | .clsCount => [.buf .pk]
  | .clsFmt => [.reg .var, .buf .pal, .reg .w]
  | .genMono => [.buf .pk, .reg .w, .reg .h, .reg .pw, .reg .fmt]
  | .genVal => [.buf .pk, .reg .fmt, .reg .w, .reg .h, .reg .pw] ++
      (if 2 ≤ s.regs.fmt.val.toNat then [.buf .pal] else [])
  | .genUnscr => [.buf .str, .reg .pw, .reg .h]
  | .rleBin => [.buf .str]
  | .rleMv => [.buf .str]
  | .rlxBin => [.buf .run, .reg .pw, .reg .h]
  | .rlxMv => [.buf .run, .buf .vals, .reg .pw, .reg .h]
  | .cntSearch => [.reg .fmt, .buf .run] ++
      (if screened s.cfg s.regs.fmt.val.toNat then [.buf .str, .reg .pw, .reg .h] else [])
  | .cntAsm => [.reg .w, .reg .h, .reg .n, .reg .us, .reg .fmt, .buf .rleb] ++
      (if 1 ≤ s.regs.fmt.val.toNat then [.buf .valb] else []) ++
      (if 2 ≤ s.regs.fmt.val.toNat then [.buf .pal] else [])
  | .encodeImage => [.buf .img, .reg .w, .reg .h, .reg .var]
  | .cntParse => [.buf .buf]
  | .pixRescr => [.buf .str, .reg .pw, .reg .h]
  | .palExpand => [.buf .str, .reg .fmt, .reg .pw, .reg .h] ++
      (if 2 ≤ s.regs.fmt.val.toNat then [.buf .pal] else [])
  | .pixCrop => [.buf .pimg, .reg .w, .reg .h, .reg .pw]
  | .decodeImage => [.buf .buf]

/-- The registers and buffers an operation may write (10_state.md R33). -/
def writeSet (i : Instr) : List Place :=
  match i with
  | .sysReset =>
    [.reg .v, .reg .n, .reg .vn, .reg .w, .reg .h, .reg .pw, .reg .fmt, .reg .var] ++
      [.reg .us, .reg .f4, .reg .f6, .reg .rb, .reg .re, .reg .si, .reg .bi, .buf .img] ++
      [.buf .wimg, .buf .pk, .buf .pal, .buf .str, .buf .run, .buf .vals, .buf .sym, .buf .rleb] ++
      [.buf .valb, .buf .buf, .buf .pimg]
  | .vwiEnc => [.buf .sym]
  | .vwiDec => [.reg .v, .reg .si, .reg .bi]
  | .chkPack => [.buf .rleb]
  | .chkGet => [.reg .v, .reg .si, .reg .bi]
  | .seqPack => [.buf .rleb]
  | .seqUnpack => [.buf .run, .reg .si, .reg .bi]
  | .fixPack => [.buf .valb]
  | .fixUnpack => [.buf .vals]
  | .curSet => [.reg .si, .reg .bi]
  | .pixClean => [.buf .wimg]
  | .pixQuant => [.buf .wimg]
  | .pixPack8 => [.buf .pk]
  | .clsCount => [.buf .pal]
  | .clsFmt => [.reg .fmt, .reg .pw, .reg .vn]
  | .genMono => [.buf .str]
  | .genVal => [.buf .str]
  | .genUnscr => [.buf .str]
  | .rleBin => [.buf .run]
  | .rleMv => [.buf .run, .buf .vals]
  | .rlxBin => [.buf .str]
  | .rlxMv => [.buf .str]
  | .cntSearch => [.reg .n, .reg .us, .buf .rleb]
  | .cntAsm => [.buf .buf, .reg .f4, .reg .f6]
  | .encodeImage =>
    [.buf .buf, .reg .fmt, .reg .f4, .reg .f6, .reg .n, .reg .us, .reg .vn, .reg .pw] ++
      [.buf .pk, .buf .pal, .buf .str, .buf .run, .buf .vals, .buf .rleb, .buf .valb, .buf .wimg]
  | .cntParse =>
    [.reg .w, .reg .h, .reg .n, .reg .us, .reg .fmt, .reg .f4, .reg .f6, .reg .pw] ++
      [.reg .vn, .buf .pal, .reg .rb, .reg .re, .reg .si, .reg .bi]
  | .pixRescr => [.buf .str]
  | .palExpand => [.buf .pimg]
  | .pixCrop => [.buf .img]
  | .decodeImage =>
    [.buf .img, .reg .w, .reg .h, .reg .n, .reg .us, .reg .fmt, .reg .f4, .reg .f6] ++
      [.reg .pw, .reg .vn, .buf .pal, .reg .rb, .reg .re, .reg .si, .reg .bi, .buf .run] ++
      [.buf .vals, .buf .str, .buf .pimg]

/-- The operations that write the flag `EOS` (10_state.md R24, R33). -/
def writesEos (i : Instr) : Bool :=
  i ∈ ([.vwiDec, .chkGet, .seqUnpack, .curSet, .cntParse, .decodeImage, .sysReset] : List Instr)

/-- The operations that write the flag `TOOMANY` (10_state.md R24, R33). -/
def writesTooMany (i : Instr) : Bool := i ∈ ([.clsCount, .encodeImage, .sysReset] : List Instr)

/-- The operations that raise a fault, the column "Raised by" of 60_exceptions.md R301; `ENCODE` and `DECODE` raise
whatever a step of their expansion raises. -/
def FaultCode.raisedBy (x : FaultCode) : List Instr :=
  match x with
  | .operandInvalid => Instr.all.filter (fun i => decide (i ≠ .sysReset))
  | .encodeIntegrityError => [.cntSearch, .encodeImage]
  | .malformedContainer => [.cntParse, .vwiDec, .seqUnpack, .fixUnpack, .rlxBin, .rlxMv, .palExpand, .decodeImage]
  | .unsupportedPaletteSize => []
  | .illegalCommand => []
  | .badChunkWidth =>
    [.vwiEnc, .vwiDec, .chkPack, .chkGet, .seqPack] ++
      [.seqUnpack, .fixPack, .fixUnpack, .cntAsm, .encodeImage, .decodeImage]
  | .zeroValue => [.vwiEnc, .seqPack, .cntSearch, .rlxBin, .rlxMv, .encodeImage, .decodeImage]
  | .valueTooWide => [.vwiDec, .seqUnpack, .decodeImage]
  | .symbolRange => [.chkPack, .fixPack, .encodeImage]
  | .zeroArea =>
    [.clsFmt, .genMono, .genVal, .genUnscr, .rlxBin, .rlxMv, .cntSearch] ++
      [.cntAsm, .cntParse, .pixRescr, .palExpand, .pixCrop, .encodeImage, .decodeImage]
  | .notMonochrome => [.clsFmt, .genMono, .encodeImage]
  | .containerTooLarge => [.cntAsm, .cntParse, .encodeImage, .decodeImage]
  | .unscreenUnsupported => [.decodeImage]
  | .operandShape =>
    [.genMono, .genVal, .genUnscr, .rleBin, .cntSearch] ++
      [.cntAsm, .pixRescr, .palExpand, .pixCrop, .encodeImage, .decodeImage]
  | .cursorRange => [.curSet, .chkGet, .vwiDec, .seqUnpack, .fixUnpack, .decodeImage]

/-- Every fault name. -/
def FaultCode.all : List FaultCode :=
  [.encodeIntegrityError, .malformedContainer, .unsupportedPaletteSize, .illegalCommand, .operandInvalid,
    .badChunkWidth, .zeroValue, .valueTooWide] ++
  [.symbolRange, .zeroArea, .notMonochrome, .containerTooLarge, .unscreenUnsupported, .operandShape, .cursorRange]

/-- The command byte `op` can raise the fault `x`: an operation that R301 lists for it, or, for `IllegalCommand`, a
byte that is no command. -/
def mayRaise (x : FaultCode) (op : Byte) : Bool :=
  match decode op with
  | .ok i => decide (i ∈ x.raisedBy)
  | .error _ => decide (x = .illegalCommand)

/-- `FAULT` and `FOP` are as reset leaves them, or record a fault that the command in `FOP` can raise. -/
def faultRecordOk (s : State) : Bool :=
  (decide (s.fault = 0) && decide (s.fop = 0)) ||
    FaultCode.all.any (fun x => decide (s.fault = x.code) && mayRaise x s.fop)

/-- The state's invariant: legal parameters, registers and buffers in canonical form, `V` no wider than `VBITS`. -/
def State.wf (s : State) : Bool :=
  s.cfg.wf && s.regs.wf && s.mem.wf && fitsVBits s.cfg s.regs.v.val

/-- Commands executed one after the other. -/
def runCommands : List Instr → State → Host.Outcome State Fault Refusal
  | [], s => .next s
  | i :: is, s =>
    match exec i s with
    | .next t => runCommands is t
    | .fault r => .fault r
    | .refused r => .refused r

/-- The steps of `ENCODE` up to the choice of the format (43_container_encoder.md R240). -/
def encodeFrontSteps : List Instr := [.pixClean, .pixQuant, .pixPack8, .clsCount, .clsFmt]

/-- The steps of `ENCODE` from the choice of the format `fmt` up to `CNT.ASM`, which is the last
(43_container_encoder.md R240). -/
def encodeMiddleSteps (fmt : BitVec 8) : List Instr :=
  if fmt = 0 then [.genMono, .rleBin, .cntSearch] else [.genVal, .rleMv, .cntSearch, .fixPack]

/-- `VWI.DEC` repeated until `EOS = 1`, at most `fuel` times, with the integers read before it
(40_vwi_codec_and_chunker.md R143). -/
def readUntilEos : Nat → State → Option (List Nat × State)
  | 0, _ => none
  | fuel + 1, s =>
    match exec .vwiDec s with
    | .next t =>
      if t.fault ≠ 0 then none
      else if t.eos then some ([], t)
      else (readUntilEos fuel t).map (fun e => (t.regs.v.val :: e.1, e.2))
    | .fault _ => none
    | .refused _ => none

/-- `norm(I)`, an image after `PIX.CLEAN` and `PIX.QUANT` (43_container_encoder.md R241). -/
def normImage (cfg : Config) (img : List Pixel) : List Pixel := img.map (fun p => quantPixel cfg (cleanPixel p))

/-- The outcome of an operation that takes a fault: `FAULT` and `FOP` written and nothing else
(60_exceptions.md R304), the code and the command as bytes. -/
def faulted (code op : Byte) (s : State) : Host.Outcome State Fault Refusal := .next { s with fault := code, fop := op }

/-- The window and the cursor that the unpacker accepts (40_vwi_codec_and_chunker.md R138, R139). -/
abbrev cursorOk (buf : List Byte) (re si : BitVec 17) (bi : BitVec 3) (n : BitVec 7) : Prop :=
  re.toNat ≤ buf.length ∧ (si.toNat < re.toNat ∨ (si = re ∧ bi = 0)) ∧ bi.toNat % n.toNat = 0

/-- The window that the unpackers accept (40_vwi_codec_and_chunker.md R137, R143, R146). -/
abbrev windowOk (buf : List Byte) (rb re : BitVec 17) : Prop := rb.toNat ≤ re.toNat ∧ re.toNat ≤ buf.length

/-- The stream of runs that alternate between the values `a` and `b`, `a` first. -/
def alternating (a b : Byte) : List Nat → List Byte
  | [] => []
  | r :: rs => List.replicate r a ++ alternating b a rs

/-- The stream of runs with their values. -/
def runStream (runs : List Nat) (vals : List Byte) : List Byte := (List.zipWith List.replicate runs vals).flatten

/-- Pixel `(x, y)` of a `w` wide row-major list (00_scope.md R14). -/
def pixelAt {α : Type} (xs : List α) (w x y : Nat) : Option α := xs[y * w + x]?

/-- The packed byte of every pixel of an image after cleaning and quantizing. -/
def packedImage (cfg : Config) (img : List Pixel) : List Byte := (normImage cfg img).map packArgb8

/-- A list of bytes that the Monochrome variant accepts (41_pixel_classifier_quantizer.md R176). -/
abbrev monochrome (cfg : Config) (pk : List Byte) : Prop :=
  pk.eraseDups.length ≤ 16 ∧ ∀ c ∈ pk, (monoOf cfg c).isSome = true

/-- The register a host write names, and the value written. -/
def RegWrite.name (x : RegWrite) : RegName :=
  match x with
  | .v _ => .v
  | .n _ => .n
  | .vn _ => .vn
  | .w _ => .w
  | .h _ => .h
  | .pw _ => .pw
  | .fmt _ => .fmt
  | .var _ => .var
  | .us _ => .us
  | .f4 _ => .f4
  | .f6 _ => .f6
  | .rb _ => .rb
  | .re _ => .re
  | .si _ => .si
  | .bi _ => .bi

/-- The value of a host write of a register. -/
def RegWrite.value (x : RegWrite) : Nat :=
  match x with
  | .v x => x
  | .n x => x.toNat
  | .vn x => x.toNat
  | .w x => x.toNat
  | .h x => x.toNat
  | .pw x => x.toNat
  | .fmt x => x.toNat
  | .var x => x.toNat
  | .us x => x.toNat
  | .f4 x => x.toNat
  | .f6 x => x.toNat
  | .rb x => x.toNat
  | .re x => x.toNat
  | .si x => x.toNat
  | .bi x => x.toNat

/-- The buffer a host write names. -/
def BufWrite.name (x : BufWrite) : BufName :=
  match x with
  | .img _ => .img
  | .wimg _ => .wimg
  | .pk _ => .pk
  | .pal _ => .pal
  | .str _ => .str
  | .run _ => .run
  | .vals _ => .vals
  | .sym _ => .sym
  | .rleb _ => .rleb
  | .valb _ => .valb
  | .buf _ => .buf
  | .pimg _ => .pimg

/-- The contents of a host write of a buffer. -/
def BufWrite.value (x : BufWrite) : HostValue :=
  match x with
  | .img xs => .pixels xs
  | .wimg xs => .pixels xs
  | .pk xs => .bytes xs
  | .pal xs => .bytes xs
  | .str xs => .bytes xs
  | .run xs => .numbers xs
  | .vals xs => .bytes xs
  | .sym xs => .numbers xs
  | .rleb xs => .bytes xs
  | .valb xs => .bytes xs
  | .buf xs => .bytes xs
  | .pimg xs => .pixels xs

/-- The buffer a host write of one element names. -/
def ElemWrite.name (x : ElemWrite) : BufName :=
  match x with
  | .img _ _ => .img
  | .wimg _ _ => .wimg
  | .pk _ _ => .pk
  | .pal _ _ => .pal
  | .str _ _ => .str
  | .run _ _ => .run
  | .vals _ _ => .vals
  | .sym _ _ => .sym
  | .rleb _ _ => .rleb
  | .valb _ _ => .valb
  | .buf _ _ => .buf
  | .pimg _ _ => .pimg

/-- The index of a host write of one element. -/
def ElemWrite.index (x : ElemWrite) : Nat :=
  match x with
  | .img i _ => i
  | .wimg i _ => i
  | .pk i _ => i
  | .pal i _ => i
  | .str i _ => i
  | .run i _ => i
  | .vals i _ => i
  | .sym i _ => i
  | .rleb i _ => i
  | .valb i _ => i
  | .buf i _ => i
  | .pimg i _ => i

/-- The value of a host write of one element. -/
def ElemWrite.value (x : ElemWrite) : HostValue :=
  match x with
  | .img _ x => .pixel x
  | .wimg _ x => .pixel x
  | .pk _ x => .number x.toNat
  | .pal _ x => .number x.toNat
  | .str _ x => .number x.toNat
  | .run _ x => .number x
  | .vals _ x => .number x.toNat
  | .sym _ x => .number x
  | .rleb _ x => .number x.toNat
  | .valb _ x => .number x.toNat
  | .buf _ x => .number x.toNat
  | .pimg _ x => .pixel x

/-- Element `i` of a buffer's contents. -/
def HostValue.element (v : HostValue) (i : Nat) : Option HostValue :=
  match v with
  | .number _ => none
  | .pixel _ => none
  | .pixels ps => ps[i]?.map .pixel
  | .bytes bs => bs[i]?.map (fun b => .number b.toNat)
  | .numbers ns => ns[i]?.map .number

/-- How many elements a buffer's contents have. -/
def HostValue.length (v : HostValue) : Nat :=
  match v with
  | .number _ => 0
  | .pixel _ => 0
  | .pixels ps => ps.length
  | .bytes bs => bs.length
  | .numbers ns => ns.length

end Sys2Proof.Machine
end

