-- ==== Sys2Proof/Certificates/Slice0/Obligations.lean ====
section
/-! DEFINITION. The statements for the provers: system and command decode, then family by family. Codes of faults and
commands are written as bytes (60_exceptions.md R301, 30_encoding.md R91). -/

open Sys2Proof Sys2Proof.Machine

/-- For every state, SYS.RESET answers a next state in which every valid bit is 0, EOS, TOOMANY, FAULT and FOP are
0, and the parameters are as before; the reset event has the same effect; issued in the reset state SYS.RESET
changes nothing. The model's choice: that the contents behind the clear valid bits are those of State.reset, so
that both resets answer one and the same state and State.reset as a whole is unchanged (log 3 and log 4), and
that the host's pending moves are a field of the state, which a reset keeps (log 2). (60_exceptions.md section 6
(R325), 70_reset_and_hazards.md section 1 (R350), 70_reset_and_hazards.md section 1 (R351)) -/
def Obligations.SysResetGivesTheResetState : Prop :=
  (∀ s : State, ∃ t, exec .sysReset s = .next t ∧ (∀ p, (t.place p).valid = false) ∧ t.eos = false ∧
    t.tooMany = false ∧ t.fault = 0 ∧ t.fop = 0 ∧ t.cfg = s.cfg ∧ t.host = s.host ∧
    makeMove .resetEvent s = .next t) ∧
  exec .sysReset State.reset = .next State.reset

/-- In State.reset every register and every buffer has valid bit 0, EOS = 0, TOOMANY = 0, FAULT = 0 and FOP = 0. The
contents behind the clear valid bits are the model's choice (log 3) and nothing is said about them. (R34) -/
def Obligations.ResetStateIsAsTheSpecSays : Prop :=
  (∀ p, (State.reset.place p).valid = false) ∧ State.reset.eos = false ∧ State.reset.tooMany = false ∧
    State.reset.fault = 0 ∧ State.reset.fop = 0

/-- Where the next pending host move writes CMD with a byte that decodes to a well-formed operation i, a step is
exec of i on the state with that move taken off the list; with no move pending a step leaves the state as it is
(the pending list is the model's own, log 2 and log 5). (10_state.md section 4 (R25), 10_state.md section 5
(R26), 60_exceptions.md section 8 (R326)) -/
def Obligations.StepRunsTheDecodedCommand : Prop :=
  (∀ (s : State) (b : Byte) (i : Instr) (ms : List HostMove), s.host = .cmd b :: ms → decode b = .ok i → i.wf = true →
    step s = exec i { s with host := ms }) ∧
  (∀ s : State, s.host = [] → step s = .next s)

/-- Every operation's byte decodes to it, and a byte that decodes to an operation is that operation's byte.
(30_encoding.md section 1 (R91)) -/
def Obligations.DecodeInvertsEncode : Prop :=
  (∀ i : Instr, decode (encode i) = .ok i) ∧ (∀ (b : Byte) (i : Instr), decode b = .ok i → encode i = b)

/-- The bytes 0x01, 0x11, 0x26, 0x32, 0x41 and 0x54 decode to SYS.RESET, VWI.DEC, GEN.VAL, RLX.BIN, CNT.ASM and
DECODE. (30_encoding.md section 1 (R91)) -/
def Obligations.DecodeOfWordsFromTheTable : Prop :=
  decode 0b00000001 = .ok .sysReset ∧ decode 0b00010001 = .ok .vwiDec ∧ decode 0b00100110 = .ok .genVal ∧
    decode 0b00110010 = .ok .rlxBin ∧ decode 0b01000001 = .ok .cntAsm ∧ decode 0b01010100 = .ok .decodeImage

/-- With FAULT = 0, a step that writes CMD with a byte that is the code of no operation sets FAULT to 16 and FOP to
the byte and changes nothing else; 226 byte values are of this kind, 0x00 and 0xFF among them. (R92) -/
def Obligations.IllegalCommandIsRecorded : Prop :=
  (∀ (s : State) (b : Byte) (ms : List HostMove), s.fault = 0 → s.host = .cmd b :: ms → (∀ i, encode i ≠ b) →
    step s = .next { s with host := ms, fault := 16, fop := b }) ∧
  ((List.range 256).filter (fun n => decide (∀ i ∈ Instr.all, encode i ≠ BitVec.ofNat 8 n))).length = 226 ∧
  (∀ i, encode i ≠ 0x00) ∧ (∀ i, encode i ≠ 0xFF)

/-- With FAULT not 0: a step that writes CMD with any byte but 0x01 only takes the move off the list; a step that
makes any other host access (a read or a write) is refused exactly as it is with FAULT = 0, and otherwise leaves
the state it leaves with FAULT = 0 but for FAULT and FOP, which it keeps; and every step that answers a next
state leaves FAULT and FOP as they are unless the move was CMD 0x01 or the reset event. (R305) -/
def Obligations.FaultsAreSticky : Prop :=
  (∀ (s : State) (b : Byte) (ms : List HostMove), s.fault ≠ 0 → s.host = .cmd b :: ms → b ≠ 0x01 →
    step s = .next { s with host := ms }) ∧
  (∀ (s : State) (m : HostMove) (ms : List HostMove), s.fault ≠ 0 → s.host = m :: ms → (∀ b, m ≠ .cmd b) →
    m ≠ .resetEvent →
    (∀ r, step s = .refused r ↔ step { s with fault := 0, fop := 0 } = .refused r) ∧
    (∀ t, step s = .next t → t.fault = s.fault ∧ t.fop = s.fop ∧
      step { s with fault := 0, fop := 0 } = .next { t with fault := 0, fop := 0 })) ∧
  (∀ s t : State, s.fault ≠ 0 → step s = .next t →
    (t.fault = s.fault ∧ t.fop = s.fop) ∨ ∃ ms, s.host = .cmd 0x01 :: ms ∨ s.host = .resetEvent :: ms)

/-- For every operation and every state with FAULT = 0: if the operation answers a next state whose FAULT is not 0,
that state is the state before with FAULT changed and FOP set to the operation's code. (60_exceptions.md section
2 (R304)) -/
def Obligations.FaultsArePrecise : Prop :=
  ∀ (i : Instr) (s t : State), s.fault = 0 → exec i s = .next t → t.fault ≠ 0 →
    t = { s with fault := t.fault, fop := encode i }

/-- For every operation and every state with FAULT = 0: if some place of the operation's read set (its conditional
part evaluated on the state) has its valid bit clear, the operation sets FAULT to 17 and FOP to its code and
changes nothing else. (10_state.md section 2 (R23), 60_exceptions.md section 3 (R306 item 4), 10_state.md
section 10 (R33)) -/
def Obligations.UnreadableOperandRaisesOperandInvalid : Prop :=
  ∀ (i : Instr) (s : State) (p : Place), s.fault = 0 → p ∈ readSet i s → (s.place p).valid = false →
    exec i s = faulted 17 (encode i) s

/-- For every operation but SYS.RESET and every next state it answers: every register and buffer outside its write
set is unchanged in contents and valid bit, EOS and TOOMANY are unchanged unless the operation writes them, no
valid bit is cleared, and the parameters and the pending moves are unchanged. (10_state.md section 10 (R33),
10_state.md section 2 (R22), 10_state.md section 3 (R24), 10_state.md section 4 (R25)) -/
def Obligations.NothingOutsideTheWriteSetIsWritten : Prop :=
  ∀ (i : Instr) (s t : State), i ≠ .sysReset → exec i s = .next t →
    (∀ p, p ∉ writeSet i → t.place p = s.place p) ∧
    (writesEos i = false → t.eos = s.eos) ∧ (writesTooMany i = false → t.tooMany = s.tooMany) ∧
    (∀ p, (s.place p).valid = true → (t.place p).valid = true) ∧ t.cfg = s.cfg ∧ t.host = s.host

/-- For every operation but SYS.RESET and two states with FAULT = 0, equal parameters, the same value read from
every place of the read set (and, for CLS.FMT, equal TOOMANY): the two runs take the same fault or none, and
every place of the write set and each flag either ends equal in both or is left unchanged by both. In particular
contents behind a clear valid bit are never used. (10_state.md section 9 (R32), 10_state.md section 10 (R33)) -/
def Obligations.ResultDependsOnTheReadSetOnly : Prop :=
  ∀ (i : Instr) (s s' t t' : State), i ≠ .sysReset → s.fault = 0 → s'.fault = 0 → s.cfg = s'.cfg →
    (i = .clsFmt → s.tooMany = s'.tooMany) → (∀ p ∈ readSet i s, (s.place p).read = (s'.place p).read) →
    exec i s = .next t → exec i s' = .next t' →
    t.fault = t'.fault ∧
    (∀ p ∈ writeSet i, t.place p = t'.place p ∨ (t.place p = s.place p ∧ t'.place p = s'.place p)) ∧
    (t.eos = t'.eos ∨ (t.eos = s.eos ∧ t'.eos = s'.eos)) ∧
    (t.tooMany = t'.tooMany ∨ (t.tooMany = s.tooMany ∧ t'.tooMany = s'.tooMany))

/-- If FAULT and FOP are both 0, or FAULT is the code of a fault and FOP a command that the fault table lists as
raising it (for IllegalCommand, a byte that is no command), then so they are after every step that answers a
next state. So codes 3, 4 to 15 and 28 to 255 are never written to FAULT. (60_exceptions.md section 1 (R301),
60_exceptions.md section 2 (R304, R305)) -/
def Obligations.FaultRecordStaysLegal : Prop :=
  ∀ s t : State, faultRecordOk s = true → step s = .next t → faultRecordOk t = true

/-- If the parameters are legal, every register and buffer without a value has the contents that reset names for it
(the canonical form, log 3 and log 4), and V fits in VBITS, then so after every step that answers a next state;
and the parameters are never changed. (10_state.md section 2 (R21, R22), 10_state.md section 4 (R25),
20_memory.md section 4 (R71)) -/
def Obligations.StateStaysWellFormed : Prop :=
  ∀ s t : State, s.wf = true → step s = .next t → t.wf = true ∧ t.cfg = s.cfg

/-- State.reset has the state's invariant and a legal fault record. (10_state.md section 11 (R34), 00_scope.md
section 4 (R11)) -/
def Obligations.ResetStateHasTheInvariants : Prop :=
  State.reset.wf = true ∧ faultRecordOk State.reset = true

/-- A step whose move writes a register other than V, or V with a value that fits VBITS, answers a next state in
which that register holds the value with its valid bit set, every other register and buffer is unchanged, and
flags, FAULT, FOP and parameters are unchanged. (A value of V too wide for VBITS is refused: the model's
inference, log 6.) (70_reset_and_hazards.md section 3 (R360), 10_state.md section 2 (R22)) -/
def Obligations.HostRegisterWriteSetsOneRegister : Prop :=
  (∀ (s : State) (x : RegWrite) (ms : List HostMove), s.host = .set x :: ms →
    (x.name = .v → fitsVBits s.cfg x.value = true) →
    ∃ t, step s = .next t ∧ t.place (.reg x.name) = .put (.number x.value) ∧
      (∀ p, p ≠ .reg x.name → t.place p = s.place p) ∧ t.eos = s.eos ∧ t.tooMany = s.tooMany ∧ t.fault = s.fault ∧
      t.fop = s.fop ∧ t.cfg = s.cfg ∧ t.host = ms) ∧
  (∀ (s : State) (v : Nat) (ms : List HostMove), s.host = .set (.v v) :: ms → fitsVBits s.cfg v = false →
    step s = .refused .writeWiderThanV)

/-- A step whose move writes a whole buffer leaves that buffer holding the new contents and every other place
unchanged. A step whose move writes one element of a valid buffer within its length leaves that element with the
value, the other elements and the length as they were and every other place unchanged; into an invalid buffer,
or beyond the length, it is refused. Flags, FAULT, FOP and parameters are unchanged. (70_reset_and_hazards.md
section 3 (R360), 92_eei_decisions.md D32) -/
def Obligations.HostBufferWrites : Prop :=
  (∀ (s : State) (x : BufWrite) (ms : List HostMove), s.host = .load x :: ms →
    ∃ t, step s = .next t ∧ t.place (.buf x.name) = .put x.value ∧
      (∀ p, p ≠ .buf x.name → t.place p = s.place p) ∧ t.eos = s.eos ∧ t.tooMany = s.tooMany ∧ t.fault = s.fault ∧
      t.fop = s.fop ∧ t.cfg = s.cfg ∧ t.host = ms) ∧
  (∀ (s : State) (x : ElemWrite) (ms : List HostMove), s.host = .poke x :: ms →
    ((s.place (.buf x.name)).valid = false → step s = .refused .writeToInvalidBuffer) ∧
    ((s.place (.buf x.name)).valid = true → (s.place (.buf x.name)).val.length ≤ x.index →
      step s = .refused .writeBeyondLength) ∧
    ((s.place (.buf x.name)).valid = true → x.index < (s.place (.buf x.name)).val.length →
      ∃ t, step s = .next t ∧ (t.place (.buf x.name)).val.element x.index = some x.value ∧
        (∀ j, j ≠ x.index → (t.place (.buf x.name)).val.element j = (s.place (.buf x.name)).val.element j) ∧
        (t.place (.buf x.name)).valid = true ∧
        (t.place (.buf x.name)).val.length = (s.place (.buf x.name)).val.length ∧
        (∀ p, p ≠ .buf x.name → t.place p = s.place p) ∧ t.eos = s.eos ∧ t.tooMany = s.tooMany ∧
        t.fault = s.fault ∧ t.fop = s.fop ∧ t.cfg = s.cfg ∧ t.host = ms))

/-- A step whose move reads a register, a buffer or one element of a buffer within its length, with the valid bit
set, or a flag, FAULT or FOP, takes the move off the list and changes nothing else, and the read answers the
contents; a read of CMD, of a register, a buffer or an element whose valid bit is clear is refused. (The model's
inference: a read of an element beyond the length is refused, log 6; the answer of a read is hostRead of the
state before it, log 7.) (70_reset_and_hazards.md section 3 (R360), 20_memory.md section 4 (R71), 10_state.md
section 4 (R25)) -/
def Obligations.HostReadsChangeNothing : Prop :=
  (∀ (s : State) (ms : List HostMove), s.host = .read .cmd :: ms → step s = .refused .readOfCmd) ∧
  (∀ (s : State) (r : RegName) (ms : List HostMove), s.host = .read (.reg r) :: ms →
    ((s.place (.reg r)).valid = false → step s = .refused .readOfInvalidRegister) ∧
    ((s.place (.reg r)).valid = true →
      step s = .next { s with host := ms } ∧ hostRead (.reg r) s = .ok (s.place (.reg r)).val)) ∧
  (∀ (s : State) (b : BufName) (ms : List HostMove), s.host = .read (.buf b) :: ms →
    ((s.place (.buf b)).valid = false → step s = .refused .readOfInvalidBuffer) ∧
    ((s.place (.buf b)).valid = true →
      step s = .next { s with host := ms } ∧ hostRead (.buf b) s = .ok (s.place (.buf b)).val)) ∧
  (∀ (s : State) (b : BufName) (i : Nat) (ms : List HostMove), s.host = .read (.elem b i) :: ms →
    ((s.place (.buf b)).valid = false → step s = .refused .readOfInvalidBuffer) ∧
    ((s.place (.buf b)).valid = true → (s.place (.buf b)).val.length ≤ i → step s = .refused .readBeyondLength) ∧
    ((s.place (.buf b)).valid = true → i < (s.place (.buf b)).val.length →
      step s = .next { s with host := ms } ∧
        ∃ x, (s.place (.buf b)).val.element i = some x ∧ hostRead (.elem b i) s = .ok x)) ∧
  (∀ (s : State) (x : HostRead) (ms : List HostMove), x = .eos ∨ x = .tooMany ∨ x = .fault ∨ x = .fop →
    s.host = .read x :: ms → step s = .next { s with host := ms }) ∧
  (∀ s : State, hostRead .eos s = .ok (.number s.eos.toNat) ∧ hostRead .tooMany s = .ok (.number s.tooMany.toNat) ∧
    hostRead .fault s = .ok (.number s.fault.toNat) ∧ hostRead .fop s = .ok (.number s.fop.toNat))

/-- For v ≥ 1 and n in {1,2,4,8}, with k = ceil(bitlength(v) / n): 2^(n(k-1)) ≤ v < 2^(nk); the code has 2k - 1
groups, each below 2^n; the first k - 1 are 0; group k - 1 + j is (v div 2^(n(k-1-j))) mod 2^n; group k - 1 is
not 0; the last k groups, most significant first, are the value v; for n = 8 and v ≤ 255 the code is [v].
(40_vwi_codec_and_chunker.md section 2 (R132), 00_scope.md section 5 (R13)) -/
def Obligations.ChopIsTheShortestCode : Prop :=
  ∀ v n : Nat, 1 ≤ v → isChunkWidth n →
    1 ≤ ceilDiv (bitlength v) n ∧ 2 ^ (n * (ceilDiv (bitlength v) n - 1)) ≤ v ∧
    v < 2 ^ (n * ceilDiv (bitlength v) n) ∧ (chop v n).length = 2 * ceilDiv (bitlength v) n - 1 ∧
    (∀ g ∈ chop v n, g < 2 ^ n) ∧ (∀ j < ceilDiv (bitlength v) n - 1, (chop v n)[j]? = some 0) ∧
    (∀ j < ceilDiv (bitlength v) n, (chop v n)[ceilDiv (bitlength v) n - 1 + j]? =
      some (v / 2 ^ (n * (ceilDiv (bitlength v) n - 1 - j)) % 2 ^ n)) ∧
    (chop v n)[ceilDiv (bitlength v) n - 1]? ≠ some 0 ∧
    groupsValue n ((chop v n).drop (ceilDiv (bitlength v) n - 1)) = v ∧
    (n = 8 → v ≤ 255 → chop v n = [v])

/-- For n in {1,2,4,8} and groups below 2^n: the packed list has ceil(len·n / 8) bytes; group(packed, j·n, n) is
group j for every j; and every n-bit place after the last group is 0. (R134, R135) -/
def Obligations.PackGroupsPlacesEveryGroup : Prop :=
  ∀ (n : Nat) (gs : List Nat), isChunkWidth n → (∀ g ∈ gs, g < 2 ^ n) →
    (packGroups gs n).length = ceilDiv (gs.length * n) 8 ∧
    (∀ j, (h : j < gs.length) → group (packGroups gs n) (j * n) n = gs[j]) ∧
    (∀ j, gs.length ≤ j → (j + 1) * n ≤ 8 * (packGroups gs n).length → group (packGroups gs n) (j * n) n = 0) ∧
    (∀ (B : List Byte) (p : Nat), p % n = 0 → p + n ≤ 8 * B.length →
      group B p n = (B.getD (p / 8) 0).toNat / 2 ^ (8 - p % 8 - n) % 2 ^ n)

/-- For n in {1,2,4,8}, a position p that is a multiple of n with p ≤ 8·E, E ≤ len(B), and z zero groups from p on:
if they reach 8·E the answer is EndOfStream(8·E); if the group after them is not zero and z + 1 groups from
there on stay within 8·E, the answer is the value of those groups, most significant first, and the position
after them; if they do not, the answer is Truncated. (R140) -/
def Obligations.NextValueReadsOneCode : Prop :=
  ∀ (B : List Byte) (E p n z : Nat), isChunkWidth n → E ≤ B.length → p % n = 0 → p + z * n ≤ 8 * E →
    (∀ j < z, group B (p + j * n) n = 0) →
    (p + z * n = 8 * E → nextValue B E p n = .endOfStream (8 * E)) ∧
    (p + z * n < 8 * E → group B (p + z * n) n ≠ 0 →
      (p + (2 * z + 1) * n ≤ 8 * E → nextValue B E p n =
        .value (groupsValue n ((List.range (z + 1)).map (fun j => group B (p + (z + j) * n) n)))
          (p + (2 * z + 1) * n)) ∧
      (8 * E < p + (2 * z + 1) * n → nextValue B E p n = .truncated))

/-- For every chunk width n in {1,2,4,8} and every sequence of positive integers, the empty one included, unpacking
the packed bytes at n gives the sequence back. (R144) -/
def Obligations.UnpackingAPackedSequenceGivesItBack : Prop :=
  ∀ (n : Nat) (seq : List Nat), isChunkWidth n → (∀ v ∈ seq, 1 ≤ v) →
    unpackSeq (packSeq seq n) 0 (packSeq seq n).length n = some seq

/-- With FAULT = 0: if V or N holds no value, OperandInvalid; else if N is not 1, 2, 4 or 8, BadChunkWidth; else if
V = 0, ZeroValue; else SYM becomes chop(V, N) and nothing else changes. (R133) -/
def Obligations.VwiEncResult : Prop :=
  (∀ s : State, s.fault = 0 → ¬(s.regs.v.valid = true ∧ s.regs.n.valid = true) →
    exec .vwiEnc s = faulted 17 0x10 s) ∧
  (∀ (s : State) (v : Nat) (n : BitVec 7), s.fault = 0 → s.regs.v = .put v → s.regs.n = .put n →
    (¬isChunkWidth n.toNat → exec .vwiEnc s = faulted 18 0x10 s) ∧
    (isChunkWidth n.toNat → v = 0 → exec .vwiEnc s = faulted 19 0x10 s) ∧
    (isChunkWidth n.toNat → 1 ≤ v →
      exec .vwiEnc s = .next { s with mem.sym := .put (chop v n.toNat) }))

/-- With FAULT = 0 and BUF, RE, SI, BI, N holding values: N not in {1,2,4,8} raises BadChunkWidth; a window or
cursor out of range raises CursorRange; else nextValue at the cursor decides: a value that fits VBITS goes to V,
the cursor moves after its code and EOS becomes 0; a wider value raises ValueTooWide; the end of the stream
gives V = 0, the cursor at RE and EOS = 1; a truncated code raises MalformedContainer. An operand without a
value raises OperandInvalid. (R139) -/
def Obligations.VwiDecResult : Prop :=
  (∀ s : State, s.fault = 0 → ¬(s.mem.buf.valid = true ∧ s.regs.re.valid = true ∧ s.regs.si.valid = true ∧ s.regs.bi.valid = true ∧ s.regs.n.valid = true) →
    exec .vwiDec s = faulted 17 0x11 s) ∧
  (∀ (s : State) (buf : List Byte) (re si : BitVec 17) (bi : BitVec 3) (n : BitVec 7), s.fault = 0 →
    s.mem.buf = .put buf → s.regs.re = .put re → s.regs.si = .put si → s.regs.bi = .put bi → s.regs.n = .put n →
    (¬isChunkWidth n.toNat → exec .vwiDec s = faulted 18 0x11 s) ∧
    (isChunkWidth n.toNat → ¬cursorOk buf re si bi n → exec .vwiDec s = faulted 27 0x11 s) ∧
    (isChunkWidth n.toNat → cursorOk buf re si bi n →
      (∀ v p, nextValue buf re.toNat (8 * si.toNat + bi.toNat) n.toNat = .value v p →
        (fitsVBits s.cfg v = false → exec .vwiDec s = faulted 20 0x11 s) ∧
        (fitsVBits s.cfg v = true → exec .vwiDec s = .next { s with
          regs.v := .put v, regs.si := .put (BitVec.ofNat 17 (p / 8)), regs.bi := .put (BitVec.ofNat 3 (p % 8)),
          eos := false })) ∧
      (∀ p, nextValue buf re.toNat (8 * si.toNat + bi.toNat) n.toNat = .endOfStream p →
        exec .vwiDec s = .next { s with
          regs.v := .put 0, regs.si := .put re, regs.bi := .put 0, eos := true }) ∧
      (nextValue buf re.toNat (8 * si.toNat + bi.toNat) n.toNat = .truncated → exec .vwiDec s = faulted 2 0x11 s)))

/-- With FAULT = 0: an operand without a value raises OperandInvalid; N not in {1,2,4,8} raises BadChunkWidth; a
symbol of 2^N or more raises SymbolRange; else RLEB becomes packGroups(SYM, N) and nothing else changes. (R136) -/
def Obligations.ChkPackResult : Prop :=
  (∀ s : State, s.fault = 0 → ¬(s.mem.sym.valid = true ∧ s.regs.n.valid = true) →
    exec .chkPack s = faulted 17 0x12 s) ∧
  (∀ (s : State) (sym : List Nat) (n : BitVec 7), s.fault = 0 → s.mem.sym = .put sym → s.regs.n = .put n →
    (¬isChunkWidth n.toNat → exec .chkPack s = faulted 18 0x12 s) ∧
    (isChunkWidth n.toNat → (∃ g ∈ sym, 2 ^ n.toNat ≤ g) → exec .chkPack s = faulted 21 0x12 s) ∧
    (isChunkWidth n.toNat → (∀ g ∈ sym, g < 2 ^ n.toNat) →
      exec .chkPack s = .next { s with mem.rleb := .put (packGroups sym n.toNat) }))

/-- With FAULT = 0 and BUF, RE, SI, BI, N holding values: N not in {1,2,4,8} raises BadChunkWidth; a window or
cursor out of range raises CursorRange; at the end V becomes 0, EOS becomes 1 and the cursor stays; else V
becomes the group of N bits at bit position 8·SI + BI, EOS becomes 0 and the cursor's bit position grows by N.
An operand without a value raises OperandInvalid. (R138) -/
def Obligations.ChkGetResult : Prop :=
  (∀ s : State, s.fault = 0 → ¬(s.mem.buf.valid = true ∧ s.regs.re.valid = true ∧ s.regs.si.valid = true ∧ s.regs.bi.valid = true ∧ s.regs.n.valid = true) →
    exec .chkGet s = faulted 17 0x13 s) ∧
  (∀ (s : State) (buf : List Byte) (re si : BitVec 17) (bi : BitVec 3) (n : BitVec 7), s.fault = 0 →
    s.mem.buf = .put buf → s.regs.re = .put re → s.regs.si = .put si → s.regs.bi = .put bi → s.regs.n = .put n →
    (¬isChunkWidth n.toNat → exec .chkGet s = faulted 18 0x13 s) ∧
    (isChunkWidth n.toNat → ¬cursorOk buf re si bi n → exec .chkGet s = faulted 27 0x13 s) ∧
    (isChunkWidth n.toNat → cursorOk buf re si bi n → si = re →
      exec .chkGet s = .next { s with regs.v := .put 0, eos := true }) ∧
    (isChunkWidth n.toNat → cursorOk buf re si bi n → si ≠ re →
      ∃ (si' : BitVec 17) (bi' : BitVec 3), 8 * si'.toNat + bi'.toNat = 8 * si.toNat + bi.toNat + n.toNat ∧
        exec .chkGet s = .next { s with
          regs.v := .put ((buf.getD si.toNat 0).toNat / 2 ^ (8 - bi.toNat - n.toNat) % 2 ^ n.toNat),
          regs.si := .put si', regs.bi := .put bi', eos := false }))

/-- With FAULT = 0: an operand without a value raises OperandInvalid; N not in {1,2,4,8} raises BadChunkWidth; an
element 0 raises ZeroValue; else RLEB becomes packGroups of the concatenated codes of the elements and nothing
else changes. (R142) -/
def Obligations.SeqPackResult : Prop :=
  (∀ s : State, s.fault = 0 → ¬(s.mem.run.valid = true ∧ s.regs.n.valid = true) →
    exec .seqPack s = faulted 17 0x14 s) ∧
  (∀ (s : State) (run : List Nat) (n : BitVec 7), s.fault = 0 → s.mem.run = .put run → s.regs.n = .put n →
    (¬isChunkWidth n.toNat → exec .seqPack s = faulted 18 0x14 s) ∧
    (isChunkWidth n.toNat → 0 ∈ run → exec .seqPack s = faulted 19 0x14 s) ∧
    (isChunkWidth n.toNat → 0 ∉ run → exec .seqPack s = .next { s with
      mem.rleb := .put (packGroups (run.flatMap (fun v => chop v n.toNat)) n.toNat) }))

/-- With FAULT = 0 and BUF, RB, RE, N holding values: BadChunkWidth, CursorRange, MalformedContainer for a truncated
code and ValueTooWide for a value beyond VBITS, in this order; else RUN becomes the integers of the window, SI =
RE, BI = 0, EOS = 1 and nothing else changes. An operand without a value raises OperandInvalid.
(40_vwi_codec_and_chunker.md section 6 (R143), 40_vwi_codec_and_chunker.md section 2 (R141)) -/
def Obligations.SeqUnpackResult : Prop :=
  (∀ s : State, s.fault = 0 → ¬(s.mem.buf.valid = true ∧ s.regs.rb.valid = true ∧ s.regs.re.valid = true ∧ s.regs.n.valid = true) →
    exec .seqUnpack s = faulted 17 0x15 s) ∧
  (∀ (s : State) (buf : List Byte) (rb re : BitVec 17) (n : BitVec 7), s.fault = 0 →
    s.mem.buf = .put buf → s.regs.rb = .put rb → s.regs.re = .put re → s.regs.n = .put n →
    (¬isChunkWidth n.toNat → exec .seqUnpack s = faulted 18 0x15 s) ∧
    (isChunkWidth n.toNat → ¬windowOk buf rb re → exec .seqUnpack s = faulted 27 0x15 s) ∧
    (isChunkWidth n.toNat → windowOk buf rb re →
      (unpackSeq buf rb.toNat re.toNat n.toNat = none → exec .seqUnpack s = faulted 2 0x15 s) ∧
      (∀ r, unpackSeq buf rb.toNat re.toNat n.toNat = some r →
        ((∃ v ∈ r, fitsVBits s.cfg v = false) → exec .seqUnpack s = faulted 20 0x15 s) ∧
        ((∀ v ∈ r, fitsVBits s.cfg v = true) → exec .seqUnpack s = .next { s with
          mem.run := .put r, regs.si := .put re, regs.bi := .put 0, eos := true }))))

/-- From a state with FAULT = 0: if SEQ.UNPACK completes, then CUR.SET completes and VWI.DEC repeated from there
until EOS = 1 reads exactly the elements of RUN, in order, and leaves the same SI, BI, EOS and FAULT = 0.
Conversely, if CUR.SET completes and VWI.DEC repeated from there reaches EOS = 1 without a fault, having read
the integers r, then SEQ.UNPACK completes with RUN = r, SI = RE, BI = 0 and EOS = 1, and changes nothing else.
(40_vwi_codec_and_chunker.md section 6 (R143)) -/
def Obligations.SeqUnpackIsRepeatedVwiDec : Prop :=
  (∀ s t : State, s.fault = 0 → exec .seqUnpack s = .next t → t.fault = 0 →
    ∃ a u, exec .curSet s = .next a ∧ a.fault = 0 ∧
      readUntilEos (8 * s.mem.buf.val.length + 1) a = some (t.mem.run.val, u) ∧
      u.regs.si = t.regs.si ∧ u.regs.bi = t.regs.bi ∧ u.eos = true ∧ t.eos = true ∧ u.fault = 0) ∧
  (∀ (s a u : State) (fuel : Nat) (r : List Nat), s.fault = 0 → exec .curSet s = .next a → a.fault = 0 →
    readUntilEos fuel a = some (r, u) →
    exec .seqUnpack s = .next { s with
      mem.run := .put r, regs.si := .put s.regs.re.val, regs.bi := .put 0, eos := true })

/-- With FAULT = 0: an operand without a value raises OperandInvalid; VN not in {1,2,4,8} raises BadChunkWidth; a
value of 2^VN or more raises SymbolRange; else VALB becomes the packed values and nothing else changes; with VN
= 8 it is VALS itself. (R145) -/
def Obligations.FixPackResult : Prop :=
  (∀ s : State, s.fault = 0 → ¬(s.mem.vals.valid = true ∧ s.regs.vn.valid = true) →
    exec .fixPack s = faulted 17 0x16 s) ∧
  (∀ (s : State) (vals : List Byte) (vn : BitVec 4), s.fault = 0 → s.mem.vals = .put vals → s.regs.vn = .put vn →
    (¬isChunkWidth vn.toNat → exec .fixPack s = faulted 18 0x16 s) ∧
    (isChunkWidth vn.toNat → (∃ x ∈ vals, 2 ^ vn.toNat ≤ x.toNat) → exec .fixPack s = faulted 21 0x16 s) ∧
    (isChunkWidth vn.toNat → (∀ x ∈ vals, x.toNat < 2 ^ vn.toNat) →
      exec .fixPack s = .next { s with mem.valb := .put (packGroups (vals.map BitVec.toNat) vn.toNat) }) ∧
    (vn = 8 → exec .fixPack s = .next { s with mem.valb := .put vals }))

/-- With FAULT = 0 and BUF, RB, RE, VN, RUN holding values: BadChunkWidth, CursorRange, and MalformedContainer where
the window is not exactly ceil(R·VN / 8) bytes, in this order; else VALS becomes R values, value i being
group(BUF, 8·RB + i·VN, VN), and nothing else changes. An operand without a value raises OperandInvalid. (R146) -/
def Obligations.FixUnpackResult : Prop :=
  (∀ s : State, s.fault = 0 → ¬(s.mem.buf.valid = true ∧ s.regs.rb.valid = true ∧ s.regs.re.valid = true ∧ s.regs.vn.valid = true ∧ s.mem.run.valid = true) →
    exec .fixUnpack s = faulted 17 0x17 s) ∧
  (∀ (s : State) (buf : List Byte) (rb re : BitVec 17) (vn : BitVec 4) (run : List Nat), s.fault = 0 →
    s.mem.buf = .put buf → s.regs.rb = .put rb → s.regs.re = .put re → s.regs.vn = .put vn → s.mem.run = .put run →
    (¬isChunkWidth vn.toNat → exec .fixUnpack s = faulted 18 0x17 s) ∧
    (isChunkWidth vn.toNat → ¬windowOk buf rb re → exec .fixUnpack s = faulted 27 0x17 s) ∧
    (isChunkWidth vn.toNat → windowOk buf rb re → re.toNat - rb.toNat ≠ ceilDiv (run.length * vn.toNat) 8 →
      exec .fixUnpack s = faulted 2 0x17 s) ∧
    (isChunkWidth vn.toNat → windowOk buf rb re → re.toNat - rb.toNat = ceilDiv (run.length * vn.toNat) 8 →
      exec .fixUnpack s = .next { s with mem.vals := .put ((List.range run.length).map (fun i =>
        toByte (group buf (8 * rb.toNat + i * vn.toNat) vn.toNat))) }))

/-- With FAULT = 0: an operand without a value raises OperandInvalid; a window that is not RB ≤ RE ≤ len(BUF) raises
CursorRange; else SI = RB, BI = 0, EOS = 0 and nothing else changes. (R137) -/
def Obligations.CurSetResult : Prop :=
  (∀ s : State, s.fault = 0 → ¬(s.mem.buf.valid = true ∧ s.regs.rb.valid = true ∧ s.regs.re.valid = true) →
    exec .curSet s = faulted 17 0x18 s) ∧
  (∀ (s : State) (buf : List Byte) (rb re : BitVec 17), s.fault = 0 → s.mem.buf = .put buf → s.regs.rb = .put rb →
    s.regs.re = .put re →
    (¬windowOk buf rb re → exec .curSet s = faulted 27 0x18 s) ∧
    (windowOk buf rb re →
      exec .curSet s = .next { s with regs.si := .put rb, regs.bi := .put 0, eos := false }))

/-- With FAULT = 0: without a value in IMG, OperandInvalid; else WIMG becomes IMG with every pixel of alpha 0
replaced by (0,0,0,0), and nothing else changes. (R171) -/
def Obligations.PixCleanResult : Prop :=
  (∀ s : State, s.fault = 0 → ¬(s.mem.img.valid = true) →
    exec .pixClean s = faulted 17 0x20 s) ∧
  (∀ (s : State) (img : List Pixel), s.fault = 0 → s.mem.img = .put img →
    exec .pixClean s = .next { s with
      mem.wimg := .put (img.map (fun p => if p.a = 0 then ⟨0, 0, 0, 0⟩ else p)) })

/-- With FAULT = 0: without a value in WIMG, OperandInvalid; else every channel c of every pixel becomes 85 times
the number of thresholds at most c, and nothing else changes; with legal parameters, PIX.QUANT of the result
leaves it as it is. (R172) -/
def Obligations.PixQuantResult : Prop :=
  (∀ s : State, s.fault = 0 → ¬(s.mem.wimg.valid = true) →
    exec .pixQuant s = faulted 17 0x21 s) ∧
  (∀ (s : State) (wimg : List Pixel), s.fault = 0 → s.mem.wimg = .put wimg →
    let q : Byte → Byte := fun c => BitVec.ofNat 8 (85 * ([s.cfg.t1, s.cfg.t2, s.cfg.t3].countP (fun t => t ≤ c)))
    exec .pixQuant s = .next { s with mem.wimg := .put (wimg.map (fun p => ⟨q p.r, q p.g, q p.b, q p.a⟩)) } ∧
    (s.cfg.wf = true → ∀ t, exec .pixQuant s = .next t → exec .pixQuant t = .next t))

/-- With FAULT = 0: without a value in WIMG, OperandInvalid; else PK becomes the list of the bytes whose bits are
the top two bits of alpha, red, green and blue, in this order, and nothing else changes. (R174) -/
def Obligations.PixPack8Result : Prop :=
  (∀ s : State, s.fault = 0 → ¬(s.mem.wimg.valid = true) →
    exec .pixPack8 s = faulted 17 0x22 s) ∧
  (∀ (s : State) (wimg : List Pixel), s.fault = 0 → s.mem.wimg = .put wimg →
    exec .pixPack8 s = .next { s with mem.pk := .put (wimg.map (fun p =>
      p.a.extractLsb' 6 2 ++ p.r.extractLsb' 6 2 ++ p.g.extractLsb' 6 2 ++ p.b.extractLsb' 6 2)) })

/-- With FAULT = 0: without a value in PK, OperandInvalid; else PAL becomes a permutation of the first 16 distinct
bytes of PK (in order of first occurrence under the default PALETTE_ORDER), TOOMANY becomes 1 exactly when PK
has more than 16 distinct bytes, and nothing else changes. (R175) -/
def Obligations.ClsCountResult : Prop :=
  (∀ s : State, s.fault = 0 → ¬(s.mem.pk.valid = true) →
    exec .clsCount s = faulted 17 0x23 s) ∧
  (∀ (s : State) (pk : List Byte), s.fault = 0 → s.mem.pk = .put pk →
    ∃ pal, exec .clsCount s = .next { s with
        mem.pal := .put pal, tooMany := decide (16 < pk.eraseDups.length) } ∧
      pal.Perm (pk.eraseDups.take 16) ∧
      (s.cfg.paletteOrder = .firstOccurrence → pal = pk.eraseDups.take 16))

/-- For every width w: paddedWidth(0, w) is the least multiple of 32 that is at least w, paddedWidth(1, w) is w, and
paddedWidth of formats 2, 3 and 4 is the least multiple of 8, 4 and 2 that is at least w. (R178) -/
def Obligations.PaddedWidthIsTheNextMultiple : Prop :=
  ∀ w : Nat,
    (32 ∣ paddedWidth 0 w ∧ w ≤ paddedWidth 0 w ∧ paddedWidth 0 w < w + 32) ∧
    paddedWidth 1 w = w ∧
    (8 ∣ paddedWidth 2 w ∧ w ≤ paddedWidth 2 w ∧ paddedWidth 2 w < w + 8) ∧
    (4 ∣ paddedWidth 3 w ∧ w ≤ paddedWidth 3 w ∧ paddedWidth 3 w < w + 4) ∧
    (2 ∣ paddedWidth 4 w ∧ w ≤ paddedWidth 4 w ∧ paddedWidth 4 w < w + 2)

/-- With FAULT = 0 and VAR, PAL, W holding values: W = 0, or an empty palette without TOOMANY, raises ZeroArea;
Color chooses 1 with TOOMANY, 0 for a palette of black and white only, else 2, 3, 4 by the size (at most 2, 4,
16); Monochrome chooses 0 where every colour is in MONO_MAP and TOOMANY is 0, else raises NotMonochrome. FMT
becomes the format, PW the padded width, VN 8, 1, 2, 4 for formats 1 to 4 and is left alone for format 0;
nothing else changes. An operand without a value raises OperandInvalid. (R176, R177) -/
def Obligations.ClsFmtResult : Prop :=
  (∀ s : State, s.fault = 0 → ¬(s.regs.var.valid = true ∧ s.mem.pal.valid = true ∧ s.regs.w.valid = true) →
    exec .clsFmt s = faulted 17 0x24 s) ∧
  (∀ (s : State) (var : BitVec 1) (pal : List Byte) (w : BitVec 8), s.fault = 0 → s.regs.var = .put var →
    s.mem.pal = .put pal → s.regs.w = .put w →
    let chosen : Nat → Host.Outcome State Fault Refusal := fun f => .next { s with
      regs.fmt := .put (BitVec.ofNat 8 f), regs.pw := .put (BitVec.ofNat 9 (paddedWidth f w.toNat)),
      regs.vn := if f = 0 then s.regs.vn else .put ([0, 8, 1, 2, 4].getD f 0) }
    let blackWhite : Prop := ∀ c ∈ pal, c = 0xC0 ∨ c = 0xFF
    (w = 0 → exec .clsFmt s = faulted 22 0x24 s) ∧
    (w ≠ 0 → s.tooMany = false → pal = [] → exec .clsFmt s = faulted 22 0x24 s) ∧
    (w ≠ 0 → (s.tooMany = true ∨ pal ≠ []) →
      (var = 1 → s.tooMany = true → exec .clsFmt s = chosen 1) ∧
      (var = 1 → s.tooMany = false → blackWhite → exec .clsFmt s = chosen 0) ∧
      (var = 1 → s.tooMany = false → ¬blackWhite → pal.length ≤ 2 → exec .clsFmt s = chosen 2) ∧
      (var = 1 → s.tooMany = false → ¬blackWhite → 2 < pal.length → pal.length ≤ 4 → exec .clsFmt s = chosen 3) ∧
      (var = 1 → s.tooMany = false → ¬blackWhite → 4 < pal.length → pal.length ≤ 16 →
        exec .clsFmt s = chosen 4) ∧
      (var = 0 → s.tooMany = false → (∀ c ∈ pal, (monoOf s.cfg c).isSome = true) → exec .clsFmt s = chosen 0) ∧
      (var = 0 → (s.tooMany = true ∨ ∃ c ∈ pal, monoOf s.cfg c = none) → exec .clsFmt s = faulted 23 0x24 s)))

/-- With FAULT = 0 and PK, W, H, PW, FMT holding values: ZeroArea for a zero dimension; OperandShape unless FMT = 0,
PW ≥ W and len(PK) = W·H; NotMonochrome for a byte outside MONO_MAP; in this order; else STR has PW·H elements,
element (x, y) being MONO_MAP of PK's pixel (x, y) for x < W and 0 for x ≥ W, and nothing else changes. An
operand without a value raises OperandInvalid. (R180) -/
def Obligations.GenMonoResult : Prop :=
  (∀ s : State, s.fault = 0 → ¬(s.mem.pk.valid = true ∧ s.regs.w.valid = true ∧ s.regs.h.valid = true ∧ s.regs.pw.valid = true ∧ s.regs.fmt.valid = true) →
    exec .genMono s = faulted 17 0x25 s) ∧
  (∀ (s : State) (pk : List Byte) (w h : BitVec 8) (pw : BitVec 9) (fmt : BitVec 8), s.fault = 0 → s.mem.pk = .put pk →
    s.regs.w = .put w → s.regs.h = .put h → s.regs.pw = .put pw → s.regs.fmt = .put fmt →
    (w = 0 ∨ h = 0 ∨ pw = 0 → exec .genMono s = faulted 22 0x25 s) ∧
    (w ≠ 0 → h ≠ 0 → pw ≠ 0 → ¬(fmt = 0 ∧ w.toNat ≤ pw.toNat ∧ pk.length = w.toNat * h.toNat) →
      exec .genMono s = faulted 26 0x25 s) ∧
    (w ≠ 0 → h ≠ 0 → pw ≠ 0 → (fmt = 0 ∧ w.toNat ≤ pw.toNat ∧ pk.length = w.toNat * h.toNat) →
      ((∃ c ∈ pk, monoOf s.cfg c = none) → exec .genMono s = faulted 23 0x25 s) ∧
      ((∀ c ∈ pk, (monoOf s.cfg c).isSome = true) →
        ∃ str, exec .genMono s = .next { s with mem.str := .put str } ∧ str.length = pw.toNat * h.toNat ∧
          ∀ x y, x < pw.toNat → y < h.toNat → pixelAt str pw.toNat x y =
            if x < w.toNat then (pixelAt pk w.toNat x y).bind (monoOf s.cfg) else some 0)))

/-- With FAULT = 0 and PK, FMT, W, H, PW (and PAL when FMT ≥ 2) holding values: ZeroArea for a zero dimension;
OperandShape unless FMT is 1 to 4, PW ≥ W and len(PK) = W·H; OperandShape when FMT ≥ 2 and a byte is not in PAL;
in this order; else STR has PW·H elements: 0 for x ≥ W; for x < W the byte c of PK's pixel (x, y) where FMT = 1,
else an index i with PAL[i] = c (stated for i < 256: what a larger index gives is open, log 11; which of several
indexes it is, is open, log 10). Nothing else changes. An operand without a value raises OperandInvalid.
(41_pixel_classifier_quantizer.md section 6 (R181)) -/
def Obligations.GenValResult : Prop :=
  (∀ s : State, s.fault = 0 → ¬(s.mem.pk.valid = true ∧ s.regs.fmt.valid = true ∧ s.regs.w.valid = true ∧
      s.regs.h.valid = true ∧ s.regs.pw.valid = true ∧ (2 ≤ s.regs.fmt.val.toNat → s.mem.pal.valid = true)) →
    exec .genVal s = faulted 17 0x26 s) ∧
  (∀ (s : State) (pk : List Byte) (w h : BitVec 8) (pw : BitVec 9) (fmt : BitVec 8) (pal : List Byte), s.fault = 0 →
    s.mem.pk = .put pk → s.regs.w = .put w → s.regs.h = .put h → s.regs.pw = .put pw → s.regs.fmt = .put fmt →
    (2 ≤ fmt.toNat → s.mem.pal = .put pal) →
    (w = 0 ∨ h = 0 ∨ pw = 0 → exec .genVal s = faulted 22 0x26 s) ∧
    (w ≠ 0 → h ≠ 0 → pw ≠ 0 →
      ¬(1 ≤ fmt.toNat ∧ fmt.toNat ≤ 4 ∧ w.toNat ≤ pw.toNat ∧ pk.length = w.toNat * h.toNat) →
      exec .genVal s = faulted 26 0x26 s) ∧
    (w ≠ 0 → h ≠ 0 → pw ≠ 0 →
      (1 ≤ fmt.toNat ∧ fmt.toNat ≤ 4 ∧ w.toNat ≤ pw.toNat ∧ pk.length = w.toNat * h.toNat) →
      (2 ≤ fmt.toNat → (∃ c ∈ pk, c ∉ pal) → exec .genVal s = faulted 26 0x26 s) ∧
      ((2 ≤ fmt.toNat → ∀ c ∈ pk, c ∈ pal) →
        ∃ str, exec .genVal s = .next { s with mem.str := .put str } ∧ str.length = pw.toNat * h.toNat ∧
          ∀ x y, x < pw.toNat → y < h.toNat →
            (w.toNat ≤ x → pixelAt str pw.toNat x y = some 0) ∧
            (∀ c, x < w.toNat → pixelAt pk w.toNat x y = some c →
              (fmt = 1 → pixelAt str pw.toNat x y = some c) ∧
              (fmt ≠ 1 → ∃ i, pal[i]? = some c ∧
                (i < 256 → pixelAt str pw.toNat x y = some (BitVec.ofNat 8 i)))))))

/-- With FAULT = 0 and STR, PW, H holding values: ZeroArea for a zero dimension; OperandShape unless len(STR) =
PW·H; else STR keeps its length and element (x, y) is XORed with 255 exactly when (x XOR y) mod 2 = 1; nothing
else changes; and a second GEN.UNSCR gives the first stream back. An operand without a value raises
OperandInvalid. (R182) -/
def Obligations.GenUnscrResult : Prop :=
  (∀ s : State, s.fault = 0 → ¬(s.mem.str.valid = true ∧ s.regs.pw.valid = true ∧ s.regs.h.valid = true) →
    exec .genUnscr s = faulted 17 0x27 s) ∧
  (∀ (s : State) (str : List Byte) (pw : BitVec 9) (h : BitVec 8), s.fault = 0 → s.mem.str = .put str →
    s.regs.pw = .put pw → s.regs.h = .put h →
    (pw = 0 ∨ h = 0 → exec .genUnscr s = faulted 22 0x27 s) ∧
    (pw ≠ 0 → h ≠ 0 → str.length ≠ pw.toNat * h.toNat → exec .genUnscr s = faulted 26 0x27 s) ∧
    (pw ≠ 0 → h ≠ 0 → str.length = pw.toNat * h.toNat →
      ∃ str', exec .genUnscr s = .next { s with mem.str := .put str' } ∧ str'.length = str.length ∧
        (∀ x y, x < pw.toNat → y < h.toNat → pixelAt str' pw.toNat x y =
          (pixelAt str pw.toNat x y).map (fun b => if (x ^^^ y) % 2 = 1 then b ^^^ 255 else b)) ∧
        exec .genUnscr { s with mem.str := .put str' } = .next s))

/-- With FAULT = 0 and STR holding a value: an element other than 0 and 255 raises OperandShape; else RUN becomes
the sequence of positive lengths whose runs of 0, 255, 0, ... in turn are one 0 (the phantom) followed by STR;
its sum is len(STR) + 1; nothing else changes. Without a value in STR, OperandInvalid. (R212) -/
def Obligations.RleBinResult : Prop :=
  (∀ s : State, s.fault = 0 → ¬(s.mem.str.valid = true) →
    exec .rleBin s = faulted 17 0x30 s) ∧
  (∀ (s : State) (str : List Byte), s.fault = 0 → s.mem.str = .put str →
    ((∃ x ∈ str, x ≠ 0 ∧ x ≠ 255) → exec .rleBin s = faulted 26 0x30 s) ∧
    ((∀ x ∈ str, x = 0 ∨ x = 255) → ∃ run, exec .rleBin s = .next { s with mem.run := .put run } ∧
      (∀ r ∈ run, 1 ≤ r) ∧ run.sum = str.length + 1 ∧ alternating 0 255 run = 0 :: str))

/-- With FAULT = 0 and STR holding a value: RUN and VALS become lists of equal length, every run positive,
consecutive values different, whose expansion is STR, and nothing else changes. Without a value in STR,
OperandInvalid. (R214) -/
def Obligations.RleMvResult : Prop :=
  (∀ s : State, s.fault = 0 → ¬(s.mem.str.valid = true) →
    exec .rleMv s = faulted 17 0x31 s) ∧
  (∀ (s : State) (str : List Byte), s.fault = 0 → s.mem.str = .put str →
    ∃ run vals, exec .rleMv s = .next { s with mem.run := .put run, mem.vals := .put vals } ∧
      run.length = vals.length ∧ (∀ r ∈ run, 1 ≤ r) ∧
      (∀ i, i + 1 < vals.length → vals[i]? ≠ vals[i + 1]?) ∧ runStream run vals = str)

/-- With FAULT = 0 and RUN, PW, H holding values: ZeroArea for a zero dimension; ZeroValue for a run 0;
MalformedContainer unless the runs sum to PW·H + 1; in this order; else STR becomes the runs of 0, 1, 0, ...
without the first pixel, PW·H elements, and nothing else changes. An operand without a value raises
OperandInvalid. (R216) -/
def Obligations.RlxBinResult : Prop :=
  (∀ s : State, s.fault = 0 → ¬(s.mem.run.valid = true ∧ s.regs.pw.valid = true ∧ s.regs.h.valid = true) →
    exec .rlxBin s = faulted 17 0x32 s) ∧
  (∀ (s : State) (run : List Nat) (pw : BitVec 9) (h : BitVec 8), s.fault = 0 → s.mem.run = .put run →
    s.regs.pw = .put pw → s.regs.h = .put h →
    (pw = 0 ∨ h = 0 → exec .rlxBin s = faulted 22 0x32 s) ∧
    (pw ≠ 0 → h ≠ 0 → 0 ∈ run → exec .rlxBin s = faulted 19 0x32 s) ∧
    (pw ≠ 0 → h ≠ 0 → 0 ∉ run → run.sum ≠ pw.toNat * h.toNat + 1 → exec .rlxBin s = faulted 2 0x32 s) ∧
    (pw ≠ 0 → h ≠ 0 → 0 ∉ run → run.sum = pw.toNat * h.toNat + 1 →
      exec .rlxBin s = .next { s with mem.str := .put ((alternating 0 1 run).drop 1) } ∧
      ((alternating 0 1 run).drop 1).length = pw.toNat * h.toNat))

/-- With FAULT = 0 and RUN, VALS, PW, H holding values: ZeroArea for a zero dimension; ZeroValue for a run 0;
MalformedContainer unless there are as many values as runs; MalformedContainer unless the runs sum to PW·H; in
this order; else STR becomes the runs of the values in order, PW·H elements, and nothing else changes. An
operand without a value raises OperandInvalid. (R217) -/
def Obligations.RlxMvResult : Prop :=
  (∀ s : State, s.fault = 0 → ¬(s.mem.run.valid = true ∧ s.mem.vals.valid = true ∧ s.regs.pw.valid = true ∧ s.regs.h.valid = true) →
    exec .rlxMv s = faulted 17 0x33 s) ∧
  (∀ (s : State) (run : List Nat) (vals : List Byte) (pw : BitVec 9) (h : BitVec 8), s.fault = 0 →
    s.mem.run = .put run → s.mem.vals = .put vals → s.regs.pw = .put pw → s.regs.h = .put h →
    (pw = 0 ∨ h = 0 → exec .rlxMv s = faulted 22 0x33 s) ∧
    (pw ≠ 0 → h ≠ 0 → 0 ∈ run → exec .rlxMv s = faulted 19 0x33 s) ∧
    (pw ≠ 0 → h ≠ 0 → 0 ∉ run → (vals.length ≠ run.length ∨ run.sum ≠ pw.toNat * h.toNat) →
      exec .rlxMv s = faulted 2 0x33 s) ∧
    (pw ≠ 0 → h ≠ 0 → 0 ∉ run → vals.length = run.length → run.sum = pw.toNat * h.toNat →
      exec .rlxMv s = .next { s with mem.str := .put (runStream run vals) } ∧
      (runStream run vals).length = pw.toNat * h.toNat))

/-- For a stream over {0, 255}, expanding its binary runs and dropping the phantom gives the stream with 255
replaced by 1; for every byte stream, expanding its runs with their values gives the stream; and the runs of an
expanded sequence of positive lengths are that sequence, in the multi-value case where consecutive values
differ. (42_run_length.md section 3 (R218)) -/
def Obligations.RunLengthCodingInverts : Prop :=
  (∀ str : List Byte, (∀ x ∈ str, x = 0 ∨ x = 255) →
    (expandBinary 0 (runsBinary str)).drop 1 = str.map (fun x => if x = 255 then 1 else 0)) ∧
  (∀ str : List Byte, expandMulti (runsMulti str).1 (runsMulti str).2 = str) ∧
  (∀ run : List Nat, run ≠ [] → (∀ r ∈ run, 1 ≤ r) → runsBinary ((alternating 0 255 run).drop 1) = run) ∧
  (∀ (run : List Nat) (vals : List Byte), run.length = vals.length → (∀ r ∈ run, 1 ≤ r) →
    (∀ i, i + 1 < vals.length → vals[i]? ≠ vals[i + 1]?) → runsMulti (runStream run vals) = (vals, run))

/-- With FAULT = 0 and FMT, RUN (and STR, PW, H where FMT = 0 and UNSCREEN_POLICY is not off) holding values:
OperandShape for FMT above 4; ZeroValue for a run 0; and for a search with the fifth candidate ZeroArea for a
zero dimension and OperandShape unless STR has PW·H elements of 0 and 255; in this order. Else it completes:
there is a width n in {1,2,4,8} whose packing of RUN is no longer than that of any width and shorter than that
of every smaller width; without a fifth candidate, or where the fifth is not strictly shorter, N = n, US = 0 and
RLEB is RUN packed at n; where the unscreened runs at width 1 are strictly shorter, N = 1, US = 1 and RLEB is
those. Nothing else changes: EncodeIntegrityError is never raised. An operand without a value raises
OperandInvalid. (R232, R234) -/
def Obligations.CntSearchResult : Prop :=
  (∀ s : State, s.fault = 0 → ¬(s.regs.fmt.valid = true ∧ s.mem.run.valid = true ∧
      (screened s.cfg s.regs.fmt.val.toNat →
        s.mem.str.valid = true ∧ s.regs.pw.valid = true ∧ s.regs.h.valid = true)) →
    exec .cntSearch s = faulted 17 0x40 s) ∧
  (∀ (s : State) (fmt : BitVec 8) (run : List Nat) (str : List Byte) (pw : BitVec 9) (h : BitVec 8), s.fault = 0 →
    s.regs.fmt = .put fmt → s.mem.run = .put run →
    (screened s.cfg fmt.toNat → s.mem.str = .put str ∧ s.regs.pw = .put pw ∧ s.regs.h = .put h) →
    let fifth := packSeq (runsBinary (unscreen pw.toNat str)) 1
    (4 < fmt.toNat → exec .cntSearch s = faulted 26 0x40 s) ∧
    (fmt.toNat ≤ 4 → 0 ∈ run → exec .cntSearch s = faulted 19 0x40 s) ∧
    (fmt.toNat ≤ 4 → 0 ∉ run → screened s.cfg fmt.toNat → (pw = 0 ∨ h = 0) →
      exec .cntSearch s = faulted 22 0x40 s) ∧
    (fmt.toNat ≤ 4 → 0 ∉ run → screened s.cfg fmt.toNat → pw ≠ 0 → h ≠ 0 →
      ¬(str.length = pw.toNat * h.toNat ∧ ∀ x ∈ str, x = 0 ∨ x = 255) → exec .cntSearch s = faulted 26 0x40 s) ∧
    (fmt.toNat ≤ 4 → 0 ∉ run →
      (screened s.cfg fmt.toNat → pw ≠ 0 ∧ h ≠ 0 ∧ str.length = pw.toNat * h.toNat ∧ ∀ x ∈ str, x = 0 ∨ x = 255) →
      ∃ n ∈ [1, 2, 4, 8],
        (∀ m ∈ [1, 2, 4, 8], (packSeq run n).length ≤ (packSeq run m).length ∧
          (m < n → (packSeq run n).length < (packSeq run m).length)) ∧
        (¬(screened s.cfg fmt.toNat ∧ fifth.length < (packSeq run n).length) →
          exec .cntSearch s = .next { s with
            regs.n := .put (BitVec.ofNat 7 n), regs.us := .put 0, mem.rleb := .put (packSeq run n) }) ∧
        (screened s.cfg fmt.toNat → fifth.length < (packSeq run n).length →
          exec .cntSearch s = .next { s with
            regs.n := .put 1, regs.us := .put 1, mem.rleb := .put fifth })))

/-- With FAULT = 0 and W, H, N, US, FMT, RLEB (VALB when FMT ≥ 1, PAL when FMT ≥ 2) holding values: ZeroArea for W =
0 or H = 0; BadChunkWidth; OperandShape for FMT above 4, for US = 1 with FMT ≠ 0, for a palette of illegal
length; ContainerTooLarge for a container longer than CONTAINER_MAX; in this order. Else, where the second
offset fits 16 bits (always so when CONTAINER_MAX is at most 65535), BUF becomes W, H, N + 128·US, FMT, the
offsets f4 = 8 + len(RLEB) and f6 = f4 + len(values) little-endian, then the regions; F4 = f4, F6 = f6; nothing
else changes. An operand without a value raises OperandInvalid. (R237) -/
def Obligations.CntAsmResult : Prop :=
  (∀ s : State, s.fault = 0 → ¬(s.regs.w.valid = true ∧ s.regs.h.valid = true ∧ s.regs.n.valid = true ∧
      s.regs.us.valid = true ∧ s.regs.fmt.valid = true ∧ s.mem.rleb.valid = true ∧
      (1 ≤ s.regs.fmt.val.toNat → s.mem.valb.valid = true) ∧ (2 ≤ s.regs.fmt.val.toNat → s.mem.pal.valid = true)) →
    exec .cntAsm s = faulted 17 0x41 s) ∧
  (∀ (s : State) (w h : BitVec 8) (n : BitVec 7) (us : BitVec 1) (fmt : BitVec 8) (rleb vb pb : List Byte),
    s.fault = 0 → s.regs.w = .put w → s.regs.h = .put h → s.regs.n = .put n → s.regs.us = .put us →
    s.regs.fmt = .put fmt → s.mem.rleb = .put rleb →
    (if 1 ≤ fmt.toNat then s.mem.valb = .put vb else vb = []) →
    (if 2 ≤ fmt.toNat then s.mem.pal = .put pb else pb = []) →
    let f4 := 8 + rleb.length
    let f6 := f4 + vb.length
    let good : Prop := fmt.toNat ≤ 4 ∧ (us = 0 ∨ fmt = 0) ∧
      (2 ≤ fmt.toNat → 1 ≤ pb.length ∧ pb.length ≤ [0, 0, 2, 4, 16].getD fmt.toNat 0)
    (w = 0 ∨ h = 0 → exec .cntAsm s = faulted 22 0x41 s) ∧
    (w ≠ 0 → h ≠ 0 → ¬isChunkWidth n.toNat → exec .cntAsm s = faulted 18 0x41 s) ∧
    (w ≠ 0 → h ≠ 0 → isChunkWidth n.toNat → ¬good → exec .cntAsm s = faulted 26 0x41 s) ∧
    (w ≠ 0 → h ≠ 0 → isChunkWidth n.toNat → good → s.cfg.containerMax < f6 + pb.length →
      exec .cntAsm s = faulted 24 0x41 s) ∧
    (w ≠ 0 → h ≠ 0 → isChunkWidth n.toNat → good → f6 + pb.length ≤ s.cfg.containerMax → f6 ≤ 65535 →
      exec .cntAsm s = .next { s with
        mem.buf := .put ([w, h, BitVec.ofNat 8 (n.toNat + 128 * us.toNat), fmt, BitVec.ofNat 8 (f4 % 256),
          BitVec.ofNat 8 (f4 / 256), BitVec.ofNat 8 (f6 % 256), BitVec.ofNat 8 (f6 / 256)] ++ rleb ++ vb ++ pb),
        regs.f4 := .put (BitVec.ofNat 16 f4), regs.f6 := .put (BitVec.ofNat 16 f6) }))

/-- If CNT.ASM or ENCODE, from FAULT = 0, answers a next state with FAULT = 0, then in it 8 ≤ F4 ≤ F6 ≤ len(BUF),
for format 0 F4 = F6, and bytes 4 to 7 of BUF are the two offsets, little-endian. (R238) -/
def Obligations.HeaderOffsetsAreConsistent : Prop :=
  ∀ (i : Instr) (s t : State), i = .cntAsm ∨ i = .encodeImage → s.fault = 0 → exec i s = .next t → t.fault = 0 →
    8 ≤ t.regs.f4.val.toNat ∧ t.regs.f4.val.toNat ≤ t.regs.f6.val.toNat ∧
    t.regs.f6.val.toNat ≤ t.mem.buf.val.length ∧ (t.regs.fmt.val = 0 → t.regs.f4.val = t.regs.f6.val) ∧
    memRead2 t.mem.buf.val 4 = t.regs.f4.val.toNat ∧ memRead2 t.mem.buf.val 6 = t.regs.f6.val.toNat

/-- With FAULT = 0 and IMG, W, H, VAR holding values: ZeroArea for W = 0 or H = 0; OperandShape unless len(IMG) =
W·H; for variant Monochrome NotMonochrome unless the cleaned, quantized image has at most 16 colours, all in
MONO_MAP. Else, with legal parameters, the steps before CNT.ASM run without a fault; with len the length of the
header, RLEB, VALB (formats 1 to 4) and PAL (formats 2 to 4) that they leave, and f6 the length without PAL:
ENCODE takes ContainerTooLarge and writes nothing else where len is above CONTAINER_MAX or f6 above 65535 (the
second by the model's inference, log 12), and completes with FAULT = 0 where neither holds, IMG unchanged and in
BUF len bytes with W, H, FMT and these regions; so it completes for W·H ≤ 50000 with CONTAINER_MAX at least
65535. An operand without a value raises OperandInvalid. (43_container_encoder.md section 3 (R240),
43_container_encoder.md section 2 (R237, R239), 60_exceptions.md section 1 (R302)) -/
def Obligations.EncodeImageCompletes : Prop :=
  (∀ s : State, s.fault = 0 → ¬(s.mem.img.valid = true ∧ s.regs.w.valid = true ∧ s.regs.h.valid = true ∧ s.regs.var.valid = true) →
    exec .encodeImage s = faulted 17 0x42 s) ∧
  (∀ (s : State) (img : List Pixel) (w h : BitVec 8) (var : BitVec 1), s.fault = 0 →
    s.mem.img = .put img → s.regs.w = .put w → s.regs.h = .put h → s.regs.var = .put var →
    (w = 0 ∨ h = 0 → exec .encodeImage s = faulted 22 0x42 s) ∧
    (w ≠ 0 → h ≠ 0 → img.length ≠ w.toNat * h.toNat → exec .encodeImage s = faulted 26 0x42 s) ∧
    (w ≠ 0 → h ≠ 0 → img.length = w.toNat * h.toNat → var = 0 → ¬monochrome s.cfg (packedImage s.cfg img) →
      exec .encodeImage s = faulted 23 0x42 s) ∧
    (w ≠ 0 → h ≠ 0 → img.length = w.toNat * h.toNat → (var = 1 ∨ monochrome s.cfg (packedImage s.cfg img)) →
      s.cfg.wf = true →
      (∃ u v, runCommands encodeFrontSteps s = .next u ∧ runCommands (encodeMiddleSteps u.regs.fmt.val) u = .next v ∧
        v.fault = 0 ∧
        let f4 := 8 + v.mem.rleb.val.length
        let f6 := f4 + (if v.regs.fmt.val = 0 then 0 else v.mem.valb.val.length)
        let len := f6 + (if 2 ≤ v.regs.fmt.val.toNat then v.mem.pal.val.length else 0)
        (s.cfg.containerMax < len ∨ 65535 < f6 → exec .encodeImage s = faulted 24 0x42 s) ∧
        (len ≤ s.cfg.containerMax → f6 ≤ 65535 →
          ∃ t buf, exec .encodeImage s = .next t ∧ t.fault = 0 ∧ t.mem.img = s.mem.img ∧ t.mem.buf = .put buf ∧
            buf.length = len ∧ buf.take 2 = [w, h] ∧ buf[3]? = some v.regs.fmt.val ∧
            (buf.take f4).drop 8 = v.mem.rleb.val ∧
            (v.regs.fmt.val ≠ 0 → (buf.take f6).drop f4 = v.mem.valb.val) ∧
            (2 ≤ v.regs.fmt.val.toNat → buf.drop f6 = v.mem.pal.val))) ∧
      (w.toNat * h.toNat ≤ 50000 → 65535 ≤ s.cfg.containerMax →
        ∃ t, exec .encodeImage s = .next t ∧ t.fault = 0)))

/-- The steps of ENCODE are PIX.CLEAN, PIX.QUANT, PIX.PACK8, CLS.COUNT, CLS.FMT, then for format 0 GEN.MONO,
RLE.BIN, CNT.SEARCH, CNT.ASM, and for formats 1 to 4 GEN.VAL, RLE.MV, CNT.SEARCH, FIX.PACK, CNT.ASM. From a
state with FAULT = 0: if ENCODE completes with FAULT = 0, the steps run one after the other end in exactly its
state. Conversely, where the steps end in a state t with FAULT = 0, ENCODE ends in t; where they end with a
fault, the first one since commands are then ignored, ENCODE takes that fault with FOP = 0x42 and writes nothing
else, provided its own checks pass (IMG, W, H, VAR hold values, W and H are not 0, len(IMG) = W·H; where they
fail EncodeImageCompletes says which fault). (43_container_encoder.md section 3 (R240), 60_exceptions.md section
2 (R304)) -/
def Obligations.EncodeImageEqualsItsSteps : Prop :=
  (∀ s t : State, s.fault = 0 → exec .encodeImage s = .next t → t.fault = 0 →
    ∃ u, runCommands [.pixClean, .pixQuant, .pixPack8, .clsCount, .clsFmt] s = .next u ∧
      (u.regs.fmt.val = 0 → runCommands [.genMono, .rleBin, .cntSearch, .cntAsm] u = .next t) ∧
      (u.regs.fmt.val ≠ 0 → runCommands [.genVal, .rleMv, .cntSearch, .fixPack, .cntAsm] u = .next t)) ∧
  (∀ s u t : State, s.fault = 0 →
    runCommands [.pixClean, .pixQuant, .pixPack8, .clsCount, .clsFmt] s = .next u →
    runCommands (if u.regs.fmt.val = 0 then [.genMono, .rleBin, .cntSearch, .cntAsm]
      else [.genVal, .rleMv, .cntSearch, .fixPack, .cntAsm]) u = .next t →
    (t.fault = 0 → exec .encodeImage s = .next t) ∧
    (t.fault ≠ 0 → s.mem.img.valid = true → s.regs.w.valid = true → s.regs.h.valid = true → s.regs.var.valid = true →
      s.regs.w.val ≠ 0 → s.regs.h.val ≠ 0 → s.mem.img.val.length = s.regs.w.val.toNat * s.regs.h.val.toNat →
      exec .encodeImage s = faulted t.fault 0x42 s))

/-- With legal parameters, UNSCREEN_POLICY off or symmetric, and a MONO_MAP defined on opaque black and opaque white
only: if ENCODE, from FAULT = 0, completes with FAULT = 0, then DECODE after it completes with FAULT = 0, IMG
holds the cleaned and quantized image, and W and H are as they were. (43_container_encoder.md section 3 (R241),
44_decoder_pipeline.md section 5 (R269), 90_conflicts.md C5) -/
def Obligations.DecodingAnEncodedImageGivesItBack : Prop :=
  ∀ (s t : State) (img : List Pixel), s.fault = 0 → s.cfg.wf = true → s.cfg.unscreen ≠ .asObserved →
    (∀ c, (monoOf s.cfg c).isSome = true → c = 0xC0 ∨ c = 0xFF) → s.mem.img = .put img →
    exec .encodeImage s = .next t → t.fault = 0 →
    ∃ u, exec .decodeImage t = .next u ∧ u.fault = 0 ∧ u.mem.img = .put (normImage s.cfg img) ∧
      u.regs.w = s.regs.w ∧ u.regs.h = s.regs.h

/-- With FAULT = 0 and BUF holding a value: MalformedContainer below 8 bytes; ContainerTooLarge above CONTAINER_MAX;
MalformedContainer for a format above 4, for an illegal chunk width, for offsets out of order, for a format 0 or
1 container whose offsets are not its length, for a palette of illegal length; ZeroArea for W = 0 or H = 0; in
this order. Else the registers get the header fields, PW the padded width, VN the value width for formats 1 to 4
(left alone for format 0), PAL the bytes from F6 on, RB = SI = 8, RE = F4, BI = 0, EOS = 0, and nothing else
changes. Without a value in BUF, OperandInvalid. (R261) -/
def Obligations.CntParseResult : Prop :=
  (∀ s : State, s.fault = 0 → ¬(s.mem.buf.valid = true) →
    exec .cntParse s = faulted 17 0x50 s) ∧
  (∀ (s : State) (buf : List Byte), s.fault = 0 → s.mem.buf = .put buf →
    let b : Nat → Nat := fun i => (buf.getD i 0).toNat
    let f4 := b 4 + 256 * b 5
    let f6 := b 6 + 256 * b 7
    let wrong : Prop := 4 < b 3 ∨ ¬isChunkWidth (b 2 % 128) ∨ ¬(8 ≤ f4 ∧ f4 ≤ f6 ∧ f6 ≤ buf.length) ∨
      (b 3 = 0 ∧ ¬(f4 = f6 ∧ f6 = buf.length)) ∨ (b 3 = 1 ∧ f6 ≠ buf.length) ∨
      (2 ≤ b 3 ∧ ¬(1 ≤ buf.length - f6 ∧ buf.length - f6 ≤ [0, 0, 2, 4, 16].getD (b 3) 0))
    (buf.length < 8 → exec .cntParse s = faulted 2 0x50 s) ∧
    (8 ≤ buf.length → s.cfg.containerMax < buf.length → exec .cntParse s = faulted 24 0x50 s) ∧
    (8 ≤ buf.length → buf.length ≤ s.cfg.containerMax → wrong → exec .cntParse s = faulted 2 0x50 s) ∧
    (8 ≤ buf.length → buf.length ≤ s.cfg.containerMax → ¬wrong → (b 0 = 0 ∨ b 1 = 0) →
      exec .cntParse s = faulted 22 0x50 s) ∧
    (8 ≤ buf.length → buf.length ≤ s.cfg.containerMax → ¬wrong → b 0 ≠ 0 → b 1 ≠ 0 →
      exec .cntParse s = .next { s with
        regs.w := .put (buf.getD 0 0), regs.h := .put (buf.getD 1 0), regs.n := .put (BitVec.ofNat 7 (b 2 % 128)),
        regs.us := .put (BitVec.ofNat 1 (b 2 / 128)), regs.fmt := .put (buf.getD 3 0),
        regs.f4 := .put (BitVec.ofNat 16 f4), regs.f6 := .put (BitVec.ofNat 16 f6),
        regs.pw := .put (BitVec.ofNat 9 (paddedWidth (b 3) (b 0))),
        regs.vn := if b 3 = 0 then s.regs.vn else .put ([0, 8, 1, 2, 4].getD (b 3) 0),
        regs.rb := .put 8, regs.re := .put (BitVec.ofNat 17 f4), regs.si := .put 8, regs.bi := .put 0,
        mem.pal := .put (buf.drop f6), eos := false }))

/-- With FAULT = 0 and STR, PW, H holding values: ZeroArea for a zero dimension; OperandShape unless len(STR) =
PW·H; OperandShape for an element other than 0 and 1; in this order; else STR keeps its length and element (x,
y) becomes 1 minus itself exactly when (x XOR y) mod 2 = 1; nothing else changes; a second PIX.RESCR gives the
first stream back. On the stream GEN.UNSCR makes of a 0/255 stream, with 255 read as 1, it gives the original
with 255 read as 1. An operand without a value raises OperandInvalid. (R265) -/
def Obligations.PixRescrResult : Prop :=
  (∀ s : State, s.fault = 0 → ¬(s.mem.str.valid = true ∧ s.regs.pw.valid = true ∧ s.regs.h.valid = true) →
    exec .pixRescr s = faulted 17 0x51 s) ∧
  (∀ (s : State) (str : List Byte) (pw : BitVec 9) (h : BitVec 8), s.fault = 0 → s.mem.str = .put str →
    s.regs.pw = .put pw → s.regs.h = .put h →
    (pw = 0 ∨ h = 0 → exec .pixRescr s = faulted 22 0x51 s) ∧
    (pw ≠ 0 → h ≠ 0 → (str.length ≠ pw.toNat * h.toNat ∨ ∃ x ∈ str, x ≠ 0 ∧ x ≠ 1) →
      exec .pixRescr s = faulted 26 0x51 s) ∧
    (pw ≠ 0 → h ≠ 0 → str.length = pw.toNat * h.toNat → (∀ x ∈ str, x = 0 ∨ x = 1) →
      ∃ str', exec .pixRescr s = .next { s with mem.str := .put str' } ∧ str'.length = str.length ∧
        (∀ x y, x < pw.toNat → y < h.toNat → pixelAt str' pw.toNat x y =
          (pixelAt str pw.toNat x y).map (fun b => if (x ^^^ y) % 2 = 1 then 1 - b else b)) ∧
        exec .pixRescr { s with mem.str := .put str' } = .next s)) ∧
  (∀ (pw : Nat) (str : List Byte), (∀ x ∈ str, x = 0 ∨ x = 255) →
    rescreen pw ((unscreen pw str).map (fun x => if x = 255 then 1 else 0)) =
      str.map (fun x => if x = 255 then 1 else 0))

/-- With FAULT = 0 and STR, FMT, PW, H (and PAL when FMT ≥ 2) holding values: ZeroArea for a zero dimension;
OperandShape unless FMT ≤ 4 and len(STR) = PW·H, for an element other than 0 and 1 in format 0, for a palette of
illegal length; MalformedContainer for an index beyond the palette; in this order; else PIMG becomes, element by
element, opaque black for 0 and opaque white for 1 (format 0), the unpacked byte (format 1), the unpacked
palette entry (formats 2 to 4), where unpacking gives each channel 85 times its two bits; nothing else changes.
An operand without a value raises OperandInvalid. (R266) -/
def Obligations.PalExpandResult : Prop :=
  (∀ s : State, s.fault = 0 → ¬(s.mem.str.valid = true ∧ s.regs.fmt.valid = true ∧ s.regs.pw.valid = true ∧
      s.regs.h.valid = true ∧ (2 ≤ s.regs.fmt.val.toNat → s.mem.pal.valid = true)) →
    exec .palExpand s = faulted 17 0x52 s) ∧
  (∀ (s : State) (str : List Byte) (fmt : BitVec 8) (pw : BitVec 9) (h : BitVec 8) (pal : List Byte), s.fault = 0 →
    s.mem.str = .put str → s.regs.fmt = .put fmt → s.regs.pw = .put pw → s.regs.h = .put h →
    (2 ≤ fmt.toNat → s.mem.pal = .put pal) →
    let unpack : Byte → Pixel := fun c => ⟨85 * (c >>> 4 &&& 3), 85 * (c >>> 2 &&& 3), 85 * (c &&& 3), 85 * (c >>> 6)⟩
    let good : Prop := fmt.toNat ≤ 4 ∧ str.length = pw.toNat * h.toNat ∧ (fmt = 0 → ∀ x ∈ str, x = 0 ∨ x = 1) ∧
      (2 ≤ fmt.toNat → 1 ≤ pal.length ∧ pal.length ≤ [0, 0, 2, 4, 16].getD fmt.toNat 0)
    (pw = 0 ∨ h = 0 → exec .palExpand s = faulted 22 0x52 s) ∧
    (pw ≠ 0 → h ≠ 0 → ¬good → exec .palExpand s = faulted 26 0x52 s) ∧
    (pw ≠ 0 → h ≠ 0 → good → 2 ≤ fmt.toNat → (∃ x ∈ str, pal.length ≤ x.toNat) →
      exec .palExpand s = faulted 2 0x52 s) ∧
    (pw ≠ 0 → h ≠ 0 → good → (2 ≤ fmt.toNat → ∀ x ∈ str, x.toNat < pal.length) →
      exec .palExpand s = .next { s with mem.pimg := .put (str.map (fun x =>
        if fmt = 0 then (if x = 0 then ⟨0, 0, 0, 255⟩ else ⟨255, 255, 255, 255⟩)
        else if fmt = 1 then unpack x else unpack (pal.getD x.toNat 0))) }))

/-- With FAULT = 0 and PIMG, W, H, PW holding values: ZeroArea for a zero dimension; OperandShape unless PW ≥ W and
len(PIMG) = PW·H; else IMG has W·H pixels, pixel (x, y) being pixel (x, y) of PIMG, and nothing else changes. An
operand without a value raises OperandInvalid. (R267) -/
def Obligations.PixCropResult : Prop :=
  (∀ s : State, s.fault = 0 → ¬(s.mem.pimg.valid = true ∧ s.regs.w.valid = true ∧ s.regs.h.valid = true ∧ s.regs.pw.valid = true) →
    exec .pixCrop s = faulted 17 0x53 s) ∧
  (∀ (s : State) (pimg : List Pixel) (w h : BitVec 8) (pw : BitVec 9), s.fault = 0 → s.mem.pimg = .put pimg →
    s.regs.w = .put w → s.regs.h = .put h → s.regs.pw = .put pw →
    (w = 0 ∨ h = 0 ∨ pw = 0 → exec .pixCrop s = faulted 22 0x53 s) ∧
    (w ≠ 0 → h ≠ 0 → pw ≠ 0 → ¬(w.toNat ≤ pw.toNat ∧ pimg.length = pw.toNat * h.toNat) →
      exec .pixCrop s = faulted 26 0x53 s) ∧
    (w ≠ 0 → h ≠ 0 → pw ≠ 0 → w.toNat ≤ pw.toNat → pimg.length = pw.toNat * h.toNat →
      ∃ img, exec .pixCrop s = .next { s with mem.img := .put img } ∧ img.length = w.toNat * h.toNat ∧
        ∀ x y, x < w.toNat → y < h.toNat → pixelAt img w.toNat x y = pixelAt pimg pw.toNat x y))

/-- With FAULT = 0 and legal parameters: let BUF hold a format-0 container of width w ≥ 1, height h ≥ 1, chunk width
n, unscreen bit us and positive runs that sum to PW·h + 1, no longer than CONTAINER_MAX and 65535 bytes. With us
= 1 under policy off DECODE raises UnscreenUnsupported. Else it completes with FAULT = 0 and FMT = 0, W and H
are w and h, and pixel (x, y) of IMG is opaque black or opaque white as element 1 + y·PW + x of the alternating
0/1 stream is 0 or 1, toggled at odd places of the checkerboard exactly when us = 1 and the policy is symmetric;
BUF is not modified. (44_decoder_pipeline.md section 5 (R268), 44_decoder_pipeline.md section 2 (R264),
44_decoder_pipeline.md section 3 (R266)) -/
def Obligations.DecodeOfAMonochromeContainer : Prop :=
  ∀ (s : State) (w h : BitVec 8) (n us : Nat) (runs : List Nat), s.fault = 0 → s.cfg.wf = true → w ≠ 0 → h ≠ 0 →
    isChunkWidth n → us ≤ 1 → (∀ r ∈ runs, 1 ≤ r) → runs.sum = paddedWidth 0 w.toNat * h.toNat + 1 →
    let rle := packSeq runs n
    let f4 := 8 + rle.length
    let pw := paddedWidth 0 w.toNat
    f4 ≤ s.cfg.containerMax → f4 ≤ 65535 →
    s.mem.buf = .put ([w, h, BitVec.ofNat 8 (n + 128 * us), 0, BitVec.ofNat 8 (f4 % 256), BitVec.ofNat 8 (f4 / 256),
      BitVec.ofNat 8 (f4 % 256), BitVec.ofNat 8 (f4 / 256)] ++ rle) →
    (us = 1 → s.cfg.unscreen = .off → exec .decodeImage s = faulted 25 0x54 s) ∧
    (¬(us = 1 ∧ s.cfg.unscreen = .off) →
      ∃ t img, exec .decodeImage s = .next t ∧ t.fault = 0 ∧ t.regs.fmt = .put 0 ∧ t.regs.w = .put w ∧
        t.regs.h = .put h ∧ t.mem.buf = s.mem.buf ∧ t.mem.img = .put img ∧ img.length = w.toNat * h.toNat ∧
        ∀ x y, x < w.toNat → y < h.toNat →
          pixelAt img w.toNat x y = some
            (if xor (decide ((alternating 0 1 runs).getD (1 + y * pw + x) 0 = 1))
                (decide (us = 1 ∧ s.cfg.unscreen = .symmetric ∧ (x ^^^ y) % 2 = 1))
              then ⟨255, 255, 255, 255⟩ else ⟨0, 0, 0, 255⟩))

/-- With FAULT = 0 and legal parameters: let BUF hold a container of format f in 1 to 4, width w ≥ 1, height h ≥ 1,
chunk width n, either value of bit 7, positive runs that sum to PW·h, one value for every run (below the
palette's length for formats 2 to 4), and for formats 2 to 4 a palette of legal length, for format 1 none; the
container no longer than CONTAINER_MAX and its offsets at most 65535. Then DECODE completes with FAULT = 0 and
FMT = f, W and H are w and h, and pixel (x, y) of IMG is the unpacked colour of element y·PW + x of the stream
of runs and values; BUF is not modified. (44_decoder_pipeline.md section 5 (R268), 44_decoder_pipeline.md
section 3 (R266), 30_encoding.md section 5 (R104, R105, R106)) -/
def Obligations.DecodeOfAColorContainer : Prop :=
  ∀ (s : State) (w h : BitVec 8) (n us f : Nat) (runs : List Nat) (vals pal : List Byte), s.fault = 0 →
    s.cfg.wf = true → w ≠ 0 → h ≠ 0 → isChunkWidth n → us ≤ 1 → 1 ≤ f → f ≤ 4 → (∀ r ∈ runs, 1 ≤ r) →
    runs.sum = paddedWidth f w.toNat * h.toNat → vals.length = runs.length →
    (f = 1 → pal = []) → (2 ≤ f → 1 ≤ pal.length ∧ pal.length ≤ maxPalette f ∧ ∀ v ∈ vals, v.toNat < pal.length) →
    let rle := packSeq runs n
    let vb := packGroups (vals.map BitVec.toNat) (valueWidth f)
    let f4 := 8 + rle.length
    let f6 := f4 + vb.length
    let pw := paddedWidth f w.toNat
    f6 + pal.length ≤ s.cfg.containerMax → f6 ≤ 65535 →
    s.mem.buf = .put ([w, h, BitVec.ofNat 8 (n + 128 * us), BitVec.ofNat 8 f, BitVec.ofNat 8 (f4 % 256),
      BitVec.ofNat 8 (f4 / 256), BitVec.ofNat 8 (f6 % 256), BitVec.ofNat 8 (f6 / 256)] ++ rle ++ vb ++ pal) →
    ∃ t img, exec .decodeImage s = .next t ∧ t.fault = 0 ∧ t.regs.fmt = .put (BitVec.ofNat 8 f) ∧ t.regs.w = .put w ∧
      t.regs.h = .put h ∧ t.mem.buf = s.mem.buf ∧ t.mem.img = .put img ∧ img.length = w.toNat * h.toNat ∧
      ∀ x y, x < w.toNat → y < h.toNat →
        pixelAt img w.toNat x y = (pixelAt (runStream runs vals) pw x y).map (fun e =>
          unpackArgb8 (if f = 1 then e else pal.getD e.toNat 0))

/-- The steps of DECODE are CNT.PARSE, SEQ.UNPACK, then for format 0 RLX.BIN, then PIX.RESCR exactly when US = 1
under policy symmetric, then PAL.EXPAND and PIX.CROP, and for formats 1 to 4, with RB and RE set to F4 and F6,
FIX.UNPACK, RLX.MV, PAL.EXPAND and PIX.CROP. From a state with FAULT = 0: if DECODE completes with FAULT = 0,
the steps run one after the other end in exactly its state. Conversely: a fault of CNT.PARSE is taken by DECODE;
after it, format 0 with US = 1 under policy off gives UnscreenUnsupported; else, where the steps end in a state
t with FAULT = 0, DECODE ends in t, and where they end with a fault, the first one since commands are then
ignored, DECODE takes that fault. A fault is taken with FOP = 0x54 and nothing else is written.
(44_decoder_pipeline.md section 5 (R268), 44_decoder_pipeline.md section 2 (R264), 60_exceptions.md section 2
(R304)) -/
def Obligations.DecodeImageEqualsItsSteps : Prop :=
  (∀ s t : State, s.fault = 0 → exec .decodeImage s = .next t → t.fault = 0 →
    ∃ u, runCommands [.cntParse, .seqUnpack] s = .next u ∧
      (u.regs.fmt.val = 0 → ¬(u.regs.us.val = 1 ∧ s.cfg.unscreen = .off) ∧
        (u.regs.us.val = 1 → s.cfg.unscreen = .symmetric →
          runCommands [.rlxBin, .pixRescr, .palExpand, .pixCrop] u = .next t) ∧
        (¬(u.regs.us.val = 1 ∧ s.cfg.unscreen = .symmetric) →
          runCommands [.rlxBin, .palExpand, .pixCrop] u = .next t)) ∧
      (u.regs.fmt.val ≠ 0 →
        runCommands [.fixUnpack, .rlxMv, .palExpand, .pixCrop] { u with
          regs.rb := .put (u.regs.f4.val.setWidth 17), regs.re := .put (u.regs.f6.val.setWidth 17) } = .next t)) ∧
  (∀ s p : State, s.fault = 0 → exec .cntParse s = .next p →
    let off : Prop := p.regs.fmt.val = 0 ∧ p.regs.us.val = 1 ∧ s.cfg.unscreen = .off
    (p.fault ≠ 0 → exec .decodeImage s = faulted p.fault 0x54 s) ∧
    (p.fault = 0 → off → exec .decodeImage s = faulted 25 0x54 s) ∧
    (∀ u t, p.fault = 0 → ¬off → exec .seqUnpack p = .next u →
      runCommands (if p.regs.fmt.val ≠ 0 then [.fixUnpack, .rlxMv, .palExpand, .pixCrop]
        else if p.regs.us.val = 1 ∧ s.cfg.unscreen = .symmetric then [.rlxBin, .pixRescr, .palExpand, .pixCrop]
        else [.rlxBin, .palExpand, .pixCrop])
        (if p.regs.fmt.val = 0 then u else { u with
          regs.rb := .put (p.regs.f4.val.setWidth 17), regs.re := .put (p.regs.f6.val.setWidth 17) }) = .next t →
      (t.fault = 0 → exec .decodeImage s = .next t) ∧ (t.fault ≠ 0 → exec .decodeImage s = faulted t.fault 0x54 s)))

/-- With FAULT = 0 and BUF holding a value, DECODE answers a next state whose FAULT is 0, MalformedContainer,
ContainerTooLarge, ZeroArea, UnscreenUnsupported or ValueTooWide; ValueTooWide only with a finite VBITS,
UnscreenUnsupported only under policy off. Without a value in BUF it raises OperandInvalid. (60_exceptions.md
section 1 (R302), 44_decoder_pipeline.md section 5 (R268, R269)) -/
def Obligations.DecodeImageFaultsOnlyAsStated : Prop :=
  (∀ s : State, s.fault = 0 → s.mem.buf.valid = false → exec .decodeImage s = faulted 17 0x54 s) ∧
  (∀ (s : State) (buf : List Byte), s.fault = 0 → s.mem.buf = .put buf →
    ∃ t, exec .decodeImage s = .next t ∧ t.mem.buf = s.mem.buf ∧
      (t.fault = 0 ∨ t.fault = 2 ∨ t.fault = 24 ∨ t.fault = 22 ∨ (t.fault = 25 ∧ s.cfg.unscreen = .off) ∨
        (t.fault = 20 ∧ s.cfg.vbits ≠ none)))
end

