-- ==== Sys2Proof/Laws/Bits.lean ====
section
/-! SUPPORT. The list of groups of a byte list, group by group, and the rows of a row-major list. -/

namespace Sys2Proof.Machine

@[simp] theorem byteGroups_length (n : Nat) (b : Byte) : (byteGroups n b).length = 8 / n := by
  simp [byteGroups]

theorem groupsOf_cons (n : Nat) (b : Byte) (B : List Byte) : groupsOf n (b :: B) = byteGroups n b ++ groupsOf n B :=
  rfl

@[simp] theorem groupsOf_length (n : Nat) (B : List Byte) : (groupsOf n B).length = B.length * (8 / n) := by
  induction B with
  | nil => simp [groupsOf]
  | cons b B ih =>
    rw [groupsOf_cons, List.length_append, ih, byteGroups_length, List.length_cons]
    ring

/-- The list of groups is that of 40_vwi_codec_and_chunker.md R135: element `j` is `group(B, j·n, n)`. -/
theorem groupsOf_getElem {n : Nat} (hn : isChunkWidth n) (B : List Byte) (j : Nat) (hj : j < (groupsOf n B).length) :
    (groupsOf n B)[j] = group B (j * n) n := by
  have h8 : 8 / n * n = 8 := by rcases hn with rfl | rfl | rfl | rfl <;> rfl
  have hn0 : 0 < n := by rcases hn with rfl | rfl | rfl | rfl <;> decide
  induction B generalizing j with
  | nil => simp [groupsOf] at hj
  | cons b B ih =>
    simp only [groupsOf_cons]
    by_cases h : j < 8 / n
    · rw [List.getElem_append_left (by simpa using h)]
      have hlt : j * n < 8 := by
        calc j * n < 8 / n * n := Nat.mul_lt_mul_of_pos_right h hn0
          _ = 8 := h8
      simp [byteGroups, group, Nat.div_eq_of_lt hlt, Nat.mod_eq_of_lt hlt]
    · have hle : 8 / n ≤ j := not_lt.mp h
      rw [List.getElem_append_right (by simpa using hle)]
      simp only [byteGroups_length]
      rw [ih]
      obtain ⟨k, rfl⟩ := Nat.exists_eq_add_of_le hle
      have e : (8 / n + k) * n = k * n + 8 := by rw [add_mul, h8, add_comm]
      simp only [group, e, Nat.add_sub_cancel_left, Nat.add_mod_right]
      rw [Nat.add_div_right _ (by decide)]
      simp

@[simp] theorem mapRows_zero {α β : Type} (w : Nat) (f : List α → List β) (xs : List α) : mapRows w f 0 xs = [] := rfl

@[simp] theorem mapRows_succ {α β : Type} (w h : Nat) (f : List α → List β) (xs : List α) :
    mapRows w f (h + 1) xs = f (xs.take w) ++ mapRows w f h (xs.drop w) := rfl

/-- Rows that all become `m` elements long make `h` times `m` elements. -/
theorem mapRows_length {α β : Type} {w m : Nat} {f : List α → List β}
    (hf : ∀ row : List α, row.length = w → (f row).length = m) (h : Nat) (xs : List α) (hx : xs.length = w * h) :
    (mapRows w f h xs).length = m * h := by
  induction h generalizing xs with
  | zero => simp
  | succ h ih =>
    have h1 : (xs.take w).length = w := by
      rw [List.length_take, hx, Nat.mul_succ]
      omega
    have h2 : (xs.drop w).length = w * h := by
      rw [List.length_drop, hx, Nat.mul_succ]
      omega
    rw [mapRows_succ, List.length_append, hf _ h1, ih _ h2, Nat.mul_succ, Nat.add_comm]

end Sys2Proof.Machine
end

