-- ==== Sys2Proof/Laws/State.lean ====
section
/-! SUPPORT. One lemma per field of State per update: what each write leaves and what it changes. -/

namespace Sys2Proof.Machine

@[simp] theorem State.setV_cfg (s : State) (x : Nat) : (s.setV x).cfg = s.cfg := rfl
@[simp] theorem State.setV_regs (s : State) (x : Nat) : (s.setV x).regs = { s.regs with v := .put x } := rfl
@[simp] theorem State.setV_mem (s : State) (x : Nat) : (s.setV x).mem = s.mem := rfl
@[simp] theorem State.setV_eos (s : State) (x : Nat) : (s.setV x).eos = s.eos := rfl
@[simp] theorem State.setV_tooMany (s : State) (x : Nat) : (s.setV x).tooMany = s.tooMany := rfl
@[simp] theorem State.setV_fault (s : State) (x : Nat) : (s.setV x).fault = s.fault := rfl
@[simp] theorem State.setV_fop (s : State) (x : Nat) : (s.setV x).fop = s.fop := rfl
@[simp] theorem State.setV_host (s : State) (x : Nat) : (s.setV x).host = s.host := rfl

@[simp] theorem State.setN_cfg (s : State) (x : BitVec 7) : (s.setN x).cfg = s.cfg := rfl
@[simp] theorem State.setN_regs (s : State) (x : BitVec 7) :
    (s.setN x).regs = { s.regs with n := .put x } := rfl
@[simp] theorem State.setN_mem (s : State) (x : BitVec 7) : (s.setN x).mem = s.mem := rfl
@[simp] theorem State.setN_eos (s : State) (x : BitVec 7) : (s.setN x).eos = s.eos := rfl
@[simp] theorem State.setN_tooMany (s : State) (x : BitVec 7) : (s.setN x).tooMany = s.tooMany := rfl
@[simp] theorem State.setN_fault (s : State) (x : BitVec 7) : (s.setN x).fault = s.fault := rfl
@[simp] theorem State.setN_fop (s : State) (x : BitVec 7) : (s.setN x).fop = s.fop := rfl
@[simp] theorem State.setN_host (s : State) (x : BitVec 7) : (s.setN x).host = s.host := rfl

@[simp] theorem State.setVn_cfg (s : State) (x : BitVec 4) : (s.setVn x).cfg = s.cfg := rfl
@[simp] theorem State.setVn_regs (s : State) (x : BitVec 4) :
    (s.setVn x).regs = { s.regs with vn := .put x } := rfl
@[simp] theorem State.setVn_mem (s : State) (x : BitVec 4) : (s.setVn x).mem = s.mem := rfl
@[simp] theorem State.setVn_eos (s : State) (x : BitVec 4) : (s.setVn x).eos = s.eos := rfl
@[simp] theorem State.setVn_tooMany (s : State) (x : BitVec 4) : (s.setVn x).tooMany = s.tooMany := rfl
@[simp] theorem State.setVn_fault (s : State) (x : BitVec 4) : (s.setVn x).fault = s.fault := rfl
@[simp] theorem State.setVn_fop (s : State) (x : BitVec 4) : (s.setVn x).fop = s.fop := rfl
@[simp] theorem State.setVn_host (s : State) (x : BitVec 4) : (s.setVn x).host = s.host := rfl

@[simp] theorem State.setW_cfg (s : State) (x : BitVec 8) : (s.setW x).cfg = s.cfg := rfl
@[simp] theorem State.setW_regs (s : State) (x : BitVec 8) :
    (s.setW x).regs = { s.regs with w := .put x } := rfl
@[simp] theorem State.setW_mem (s : State) (x : BitVec 8) : (s.setW x).mem = s.mem := rfl
@[simp] theorem State.setW_eos (s : State) (x : BitVec 8) : (s.setW x).eos = s.eos := rfl
@[simp] theorem State.setW_tooMany (s : State) (x : BitVec 8) : (s.setW x).tooMany = s.tooMany := rfl
@[simp] theorem State.setW_fault (s : State) (x : BitVec 8) : (s.setW x).fault = s.fault := rfl
@[simp] theorem State.setW_fop (s : State) (x : BitVec 8) : (s.setW x).fop = s.fop := rfl
@[simp] theorem State.setW_host (s : State) (x : BitVec 8) : (s.setW x).host = s.host := rfl

@[simp] theorem State.setH_cfg (s : State) (x : BitVec 8) : (s.setH x).cfg = s.cfg := rfl
@[simp] theorem State.setH_regs (s : State) (x : BitVec 8) :
    (s.setH x).regs = { s.regs with h := .put x } := rfl
@[simp] theorem State.setH_mem (s : State) (x : BitVec 8) : (s.setH x).mem = s.mem := rfl
@[simp] theorem State.setH_eos (s : State) (x : BitVec 8) : (s.setH x).eos = s.eos := rfl
@[simp] theorem State.setH_tooMany (s : State) (x : BitVec 8) : (s.setH x).tooMany = s.tooMany := rfl
@[simp] theorem State.setH_fault (s : State) (x : BitVec 8) : (s.setH x).fault = s.fault := rfl
@[simp] theorem State.setH_fop (s : State) (x : BitVec 8) : (s.setH x).fop = s.fop := rfl
@[simp] theorem State.setH_host (s : State) (x : BitVec 8) : (s.setH x).host = s.host := rfl

@[simp] theorem State.setPw_cfg (s : State) (x : BitVec 9) : (s.setPw x).cfg = s.cfg := rfl
@[simp] theorem State.setPw_regs (s : State) (x : BitVec 9) :
    (s.setPw x).regs = { s.regs with pw := .put x } := rfl
@[simp] theorem State.setPw_mem (s : State) (x : BitVec 9) : (s.setPw x).mem = s.mem := rfl
@[simp] theorem State.setPw_eos (s : State) (x : BitVec 9) : (s.setPw x).eos = s.eos := rfl
@[simp] theorem State.setPw_tooMany (s : State) (x : BitVec 9) : (s.setPw x).tooMany = s.tooMany := rfl
@[simp] theorem State.setPw_fault (s : State) (x : BitVec 9) : (s.setPw x).fault = s.fault := rfl
@[simp] theorem State.setPw_fop (s : State) (x : BitVec 9) : (s.setPw x).fop = s.fop := rfl
@[simp] theorem State.setPw_host (s : State) (x : BitVec 9) : (s.setPw x).host = s.host := rfl

@[simp] theorem State.setFmt_cfg (s : State) (x : BitVec 8) : (s.setFmt x).cfg = s.cfg := rfl
@[simp] theorem State.setFmt_regs (s : State) (x : BitVec 8) :
    (s.setFmt x).regs = { s.regs with fmt := .put x } := rfl
@[simp] theorem State.setFmt_mem (s : State) (x : BitVec 8) : (s.setFmt x).mem = s.mem := rfl
@[simp] theorem State.setFmt_eos (s : State) (x : BitVec 8) : (s.setFmt x).eos = s.eos := rfl
@[simp] theorem State.setFmt_tooMany (s : State) (x : BitVec 8) : (s.setFmt x).tooMany = s.tooMany := rfl
@[simp] theorem State.setFmt_fault (s : State) (x : BitVec 8) : (s.setFmt x).fault = s.fault := rfl
@[simp] theorem State.setFmt_fop (s : State) (x : BitVec 8) : (s.setFmt x).fop = s.fop := rfl
@[simp] theorem State.setFmt_host (s : State) (x : BitVec 8) : (s.setFmt x).host = s.host := rfl

@[simp] theorem State.setVar_cfg (s : State) (x : BitVec 1) : (s.setVar x).cfg = s.cfg := rfl
@[simp] theorem State.setVar_regs (s : State) (x : BitVec 1) :
    (s.setVar x).regs = { s.regs with var := .put x } := rfl
@[simp] theorem State.setVar_mem (s : State) (x : BitVec 1) : (s.setVar x).mem = s.mem := rfl
@[simp] theorem State.setVar_eos (s : State) (x : BitVec 1) : (s.setVar x).eos = s.eos := rfl
@[simp] theorem State.setVar_tooMany (s : State) (x : BitVec 1) : (s.setVar x).tooMany = s.tooMany := rfl
@[simp] theorem State.setVar_fault (s : State) (x : BitVec 1) : (s.setVar x).fault = s.fault := rfl
@[simp] theorem State.setVar_fop (s : State) (x : BitVec 1) : (s.setVar x).fop = s.fop := rfl
@[simp] theorem State.setVar_host (s : State) (x : BitVec 1) : (s.setVar x).host = s.host := rfl

@[simp] theorem State.setUs_cfg (s : State) (x : BitVec 1) : (s.setUs x).cfg = s.cfg := rfl
@[simp] theorem State.setUs_regs (s : State) (x : BitVec 1) :
    (s.setUs x).regs = { s.regs with us := .put x } := rfl
@[simp] theorem State.setUs_mem (s : State) (x : BitVec 1) : (s.setUs x).mem = s.mem := rfl
@[simp] theorem State.setUs_eos (s : State) (x : BitVec 1) : (s.setUs x).eos = s.eos := rfl
@[simp] theorem State.setUs_tooMany (s : State) (x : BitVec 1) : (s.setUs x).tooMany = s.tooMany := rfl
@[simp] theorem State.setUs_fault (s : State) (x : BitVec 1) : (s.setUs x).fault = s.fault := rfl
@[simp] theorem State.setUs_fop (s : State) (x : BitVec 1) : (s.setUs x).fop = s.fop := rfl
@[simp] theorem State.setUs_host (s : State) (x : BitVec 1) : (s.setUs x).host = s.host := rfl

@[simp] theorem State.setF4_cfg (s : State) (x : BitVec 16) : (s.setF4 x).cfg = s.cfg := rfl
@[simp] theorem State.setF4_regs (s : State) (x : BitVec 16) :
    (s.setF4 x).regs = { s.regs with f4 := .put x } := rfl
@[simp] theorem State.setF4_mem (s : State) (x : BitVec 16) : (s.setF4 x).mem = s.mem := rfl
@[simp] theorem State.setF4_eos (s : State) (x : BitVec 16) : (s.setF4 x).eos = s.eos := rfl
@[simp] theorem State.setF4_tooMany (s : State) (x : BitVec 16) : (s.setF4 x).tooMany = s.tooMany := rfl
@[simp] theorem State.setF4_fault (s : State) (x : BitVec 16) : (s.setF4 x).fault = s.fault := rfl
@[simp] theorem State.setF4_fop (s : State) (x : BitVec 16) : (s.setF4 x).fop = s.fop := rfl
@[simp] theorem State.setF4_host (s : State) (x : BitVec 16) : (s.setF4 x).host = s.host := rfl

@[simp] theorem State.setF6_cfg (s : State) (x : BitVec 16) : (s.setF6 x).cfg = s.cfg := rfl
@[simp] theorem State.setF6_regs (s : State) (x : BitVec 16) :
    (s.setF6 x).regs = { s.regs with f6 := .put x } := rfl
@[simp] theorem State.setF6_mem (s : State) (x : BitVec 16) : (s.setF6 x).mem = s.mem := rfl
@[simp] theorem State.setF6_eos (s : State) (x : BitVec 16) : (s.setF6 x).eos = s.eos := rfl
@[simp] theorem State.setF6_tooMany (s : State) (x : BitVec 16) : (s.setF6 x).tooMany = s.tooMany := rfl
@[simp] theorem State.setF6_fault (s : State) (x : BitVec 16) : (s.setF6 x).fault = s.fault := rfl
@[simp] theorem State.setF6_fop (s : State) (x : BitVec 16) : (s.setF6 x).fop = s.fop := rfl
@[simp] theorem State.setF6_host (s : State) (x : BitVec 16) : (s.setF6 x).host = s.host := rfl

@[simp] theorem State.setRb_cfg (s : State) (x : BitVec 17) : (s.setRb x).cfg = s.cfg := rfl
@[simp] theorem State.setRb_regs (s : State) (x : BitVec 17) :
    (s.setRb x).regs = { s.regs with rb := .put x } := rfl
@[simp] theorem State.setRb_mem (s : State) (x : BitVec 17) : (s.setRb x).mem = s.mem := rfl
@[simp] theorem State.setRb_eos (s : State) (x : BitVec 17) : (s.setRb x).eos = s.eos := rfl
@[simp] theorem State.setRb_tooMany (s : State) (x : BitVec 17) : (s.setRb x).tooMany = s.tooMany := rfl
@[simp] theorem State.setRb_fault (s : State) (x : BitVec 17) : (s.setRb x).fault = s.fault := rfl
@[simp] theorem State.setRb_fop (s : State) (x : BitVec 17) : (s.setRb x).fop = s.fop := rfl
@[simp] theorem State.setRb_host (s : State) (x : BitVec 17) : (s.setRb x).host = s.host := rfl

@[simp] theorem State.setRe_cfg (s : State) (x : BitVec 17) : (s.setRe x).cfg = s.cfg := rfl
@[simp] theorem State.setRe_regs (s : State) (x : BitVec 17) :
    (s.setRe x).regs = { s.regs with re := .put x } := rfl
@[simp] theorem State.setRe_mem (s : State) (x : BitVec 17) : (s.setRe x).mem = s.mem := rfl
@[simp] theorem State.setRe_eos (s : State) (x : BitVec 17) : (s.setRe x).eos = s.eos := rfl
@[simp] theorem State.setRe_tooMany (s : State) (x : BitVec 17) : (s.setRe x).tooMany = s.tooMany := rfl
@[simp] theorem State.setRe_fault (s : State) (x : BitVec 17) : (s.setRe x).fault = s.fault := rfl
@[simp] theorem State.setRe_fop (s : State) (x : BitVec 17) : (s.setRe x).fop = s.fop := rfl
@[simp] theorem State.setRe_host (s : State) (x : BitVec 17) : (s.setRe x).host = s.host := rfl

@[simp] theorem State.setSi_cfg (s : State) (x : BitVec 17) : (s.setSi x).cfg = s.cfg := rfl
@[simp] theorem State.setSi_regs (s : State) (x : BitVec 17) :
    (s.setSi x).regs = { s.regs with si := .put x } := rfl
@[simp] theorem State.setSi_mem (s : State) (x : BitVec 17) : (s.setSi x).mem = s.mem := rfl
@[simp] theorem State.setSi_eos (s : State) (x : BitVec 17) : (s.setSi x).eos = s.eos := rfl
@[simp] theorem State.setSi_tooMany (s : State) (x : BitVec 17) : (s.setSi x).tooMany = s.tooMany := rfl
@[simp] theorem State.setSi_fault (s : State) (x : BitVec 17) : (s.setSi x).fault = s.fault := rfl
@[simp] theorem State.setSi_fop (s : State) (x : BitVec 17) : (s.setSi x).fop = s.fop := rfl
@[simp] theorem State.setSi_host (s : State) (x : BitVec 17) : (s.setSi x).host = s.host := rfl

@[simp] theorem State.setBi_cfg (s : State) (x : BitVec 3) : (s.setBi x).cfg = s.cfg := rfl
@[simp] theorem State.setBi_regs (s : State) (x : BitVec 3) :
    (s.setBi x).regs = { s.regs with bi := .put x } := rfl
@[simp] theorem State.setBi_mem (s : State) (x : BitVec 3) : (s.setBi x).mem = s.mem := rfl
@[simp] theorem State.setBi_eos (s : State) (x : BitVec 3) : (s.setBi x).eos = s.eos := rfl
@[simp] theorem State.setBi_tooMany (s : State) (x : BitVec 3) : (s.setBi x).tooMany = s.tooMany := rfl
@[simp] theorem State.setBi_fault (s : State) (x : BitVec 3) : (s.setBi x).fault = s.fault := rfl
@[simp] theorem State.setBi_fop (s : State) (x : BitVec 3) : (s.setBi x).fop = s.fop := rfl
@[simp] theorem State.setBi_host (s : State) (x : BitVec 3) : (s.setBi x).host = s.host := rfl

@[simp] theorem State.setImg_cfg (s : State) (x : List Pixel) : (s.setImg x).cfg = s.cfg := rfl
@[simp] theorem State.setImg_regs (s : State) (x : List Pixel) : (s.setImg x).regs = s.regs := rfl
@[simp] theorem State.setImg_mem (s : State) (x : List Pixel) :
    (s.setImg x).mem = { s.mem with img := .put x } := rfl
@[simp] theorem State.setImg_eos (s : State) (x : List Pixel) : (s.setImg x).eos = s.eos := rfl
@[simp] theorem State.setImg_tooMany (s : State) (x : List Pixel) : (s.setImg x).tooMany = s.tooMany := rfl
@[simp] theorem State.setImg_fault (s : State) (x : List Pixel) : (s.setImg x).fault = s.fault := rfl
@[simp] theorem State.setImg_fop (s : State) (x : List Pixel) : (s.setImg x).fop = s.fop := rfl
@[simp] theorem State.setImg_host (s : State) (x : List Pixel) : (s.setImg x).host = s.host := rfl

@[simp] theorem State.setWimg_cfg (s : State) (x : List Pixel) : (s.setWimg x).cfg = s.cfg := rfl
@[simp] theorem State.setWimg_regs (s : State) (x : List Pixel) : (s.setWimg x).regs = s.regs := rfl
@[simp] theorem State.setWimg_mem (s : State) (x : List Pixel) :
    (s.setWimg x).mem = { s.mem with wimg := .put x } := rfl
@[simp] theorem State.setWimg_eos (s : State) (x : List Pixel) : (s.setWimg x).eos = s.eos := rfl
@[simp] theorem State.setWimg_tooMany (s : State) (x : List Pixel) : (s.setWimg x).tooMany = s.tooMany := rfl
@[simp] theorem State.setWimg_fault (s : State) (x : List Pixel) : (s.setWimg x).fault = s.fault := rfl
@[simp] theorem State.setWimg_fop (s : State) (x : List Pixel) : (s.setWimg x).fop = s.fop := rfl
@[simp] theorem State.setWimg_host (s : State) (x : List Pixel) : (s.setWimg x).host = s.host := rfl

@[simp] theorem State.setPk_cfg (s : State) (x : List Byte) : (s.setPk x).cfg = s.cfg := rfl
@[simp] theorem State.setPk_regs (s : State) (x : List Byte) : (s.setPk x).regs = s.regs := rfl
@[simp] theorem State.setPk_mem (s : State) (x : List Byte) :
    (s.setPk x).mem = { s.mem with pk := .put x } := rfl
@[simp] theorem State.setPk_eos (s : State) (x : List Byte) : (s.setPk x).eos = s.eos := rfl
@[simp] theorem State.setPk_tooMany (s : State) (x : List Byte) : (s.setPk x).tooMany = s.tooMany := rfl
@[simp] theorem State.setPk_fault (s : State) (x : List Byte) : (s.setPk x).fault = s.fault := rfl
@[simp] theorem State.setPk_fop (s : State) (x : List Byte) : (s.setPk x).fop = s.fop := rfl
@[simp] theorem State.setPk_host (s : State) (x : List Byte) : (s.setPk x).host = s.host := rfl

@[simp] theorem State.setPal_cfg (s : State) (x : List Byte) : (s.setPal x).cfg = s.cfg := rfl
@[simp] theorem State.setPal_regs (s : State) (x : List Byte) : (s.setPal x).regs = s.regs := rfl
@[simp] theorem State.setPal_mem (s : State) (x : List Byte) :
    (s.setPal x).mem = { s.mem with pal := .put x } := rfl
@[simp] theorem State.setPal_eos (s : State) (x : List Byte) : (s.setPal x).eos = s.eos := rfl
@[simp] theorem State.setPal_tooMany (s : State) (x : List Byte) : (s.setPal x).tooMany = s.tooMany := rfl
@[simp] theorem State.setPal_fault (s : State) (x : List Byte) : (s.setPal x).fault = s.fault := rfl
@[simp] theorem State.setPal_fop (s : State) (x : List Byte) : (s.setPal x).fop = s.fop := rfl
@[simp] theorem State.setPal_host (s : State) (x : List Byte) : (s.setPal x).host = s.host := rfl

@[simp] theorem State.setStr_cfg (s : State) (x : List Byte) : (s.setStr x).cfg = s.cfg := rfl
@[simp] theorem State.setStr_regs (s : State) (x : List Byte) : (s.setStr x).regs = s.regs := rfl
@[simp] theorem State.setStr_mem (s : State) (x : List Byte) :
    (s.setStr x).mem = { s.mem with str := .put x } := rfl
@[simp] theorem State.setStr_eos (s : State) (x : List Byte) : (s.setStr x).eos = s.eos := rfl
@[simp] theorem State.setStr_tooMany (s : State) (x : List Byte) : (s.setStr x).tooMany = s.tooMany := rfl
@[simp] theorem State.setStr_fault (s : State) (x : List Byte) : (s.setStr x).fault = s.fault := rfl
@[simp] theorem State.setStr_fop (s : State) (x : List Byte) : (s.setStr x).fop = s.fop := rfl
@[simp] theorem State.setStr_host (s : State) (x : List Byte) : (s.setStr x).host = s.host := rfl

@[simp] theorem State.setRun_cfg (s : State) (x : List Nat) : (s.setRun x).cfg = s.cfg := rfl
@[simp] theorem State.setRun_regs (s : State) (x : List Nat) : (s.setRun x).regs = s.regs := rfl
@[simp] theorem State.setRun_mem (s : State) (x : List Nat) :
    (s.setRun x).mem = { s.mem with run := .put x } := rfl
@[simp] theorem State.setRun_eos (s : State) (x : List Nat) : (s.setRun x).eos = s.eos := rfl
@[simp] theorem State.setRun_tooMany (s : State) (x : List Nat) : (s.setRun x).tooMany = s.tooMany := rfl
@[simp] theorem State.setRun_fault (s : State) (x : List Nat) : (s.setRun x).fault = s.fault := rfl
@[simp] theorem State.setRun_fop (s : State) (x : List Nat) : (s.setRun x).fop = s.fop := rfl
@[simp] theorem State.setRun_host (s : State) (x : List Nat) : (s.setRun x).host = s.host := rfl

@[simp] theorem State.setVals_cfg (s : State) (x : List Byte) : (s.setVals x).cfg = s.cfg := rfl
@[simp] theorem State.setVals_regs (s : State) (x : List Byte) : (s.setVals x).regs = s.regs := rfl
@[simp] theorem State.setVals_mem (s : State) (x : List Byte) :
    (s.setVals x).mem = { s.mem with vals := .put x } := rfl
@[simp] theorem State.setVals_eos (s : State) (x : List Byte) : (s.setVals x).eos = s.eos := rfl
@[simp] theorem State.setVals_tooMany (s : State) (x : List Byte) : (s.setVals x).tooMany = s.tooMany := rfl
@[simp] theorem State.setVals_fault (s : State) (x : List Byte) : (s.setVals x).fault = s.fault := rfl
@[simp] theorem State.setVals_fop (s : State) (x : List Byte) : (s.setVals x).fop = s.fop := rfl
@[simp] theorem State.setVals_host (s : State) (x : List Byte) : (s.setVals x).host = s.host := rfl

@[simp] theorem State.setSym_cfg (s : State) (x : List Nat) : (s.setSym x).cfg = s.cfg := rfl
@[simp] theorem State.setSym_regs (s : State) (x : List Nat) : (s.setSym x).regs = s.regs := rfl
@[simp] theorem State.setSym_mem (s : State) (x : List Nat) :
    (s.setSym x).mem = { s.mem with sym := .put x } := rfl
@[simp] theorem State.setSym_eos (s : State) (x : List Nat) : (s.setSym x).eos = s.eos := rfl
@[simp] theorem State.setSym_tooMany (s : State) (x : List Nat) : (s.setSym x).tooMany = s.tooMany := rfl
@[simp] theorem State.setSym_fault (s : State) (x : List Nat) : (s.setSym x).fault = s.fault := rfl
@[simp] theorem State.setSym_fop (s : State) (x : List Nat) : (s.setSym x).fop = s.fop := rfl
@[simp] theorem State.setSym_host (s : State) (x : List Nat) : (s.setSym x).host = s.host := rfl

@[simp] theorem State.setRleb_cfg (s : State) (x : List Byte) : (s.setRleb x).cfg = s.cfg := rfl
@[simp] theorem State.setRleb_regs (s : State) (x : List Byte) : (s.setRleb x).regs = s.regs := rfl
@[simp] theorem State.setRleb_mem (s : State) (x : List Byte) :
    (s.setRleb x).mem = { s.mem with rleb := .put x } := rfl
@[simp] theorem State.setRleb_eos (s : State) (x : List Byte) : (s.setRleb x).eos = s.eos := rfl
@[simp] theorem State.setRleb_tooMany (s : State) (x : List Byte) : (s.setRleb x).tooMany = s.tooMany := rfl
@[simp] theorem State.setRleb_fault (s : State) (x : List Byte) : (s.setRleb x).fault = s.fault := rfl
@[simp] theorem State.setRleb_fop (s : State) (x : List Byte) : (s.setRleb x).fop = s.fop := rfl
@[simp] theorem State.setRleb_host (s : State) (x : List Byte) : (s.setRleb x).host = s.host := rfl

@[simp] theorem State.setValb_cfg (s : State) (x : List Byte) : (s.setValb x).cfg = s.cfg := rfl
@[simp] theorem State.setValb_regs (s : State) (x : List Byte) : (s.setValb x).regs = s.regs := rfl
@[simp] theorem State.setValb_mem (s : State) (x : List Byte) :
    (s.setValb x).mem = { s.mem with valb := .put x } := rfl
@[simp] theorem State.setValb_eos (s : State) (x : List Byte) : (s.setValb x).eos = s.eos := rfl
@[simp] theorem State.setValb_tooMany (s : State) (x : List Byte) : (s.setValb x).tooMany = s.tooMany := rfl
@[simp] theorem State.setValb_fault (s : State) (x : List Byte) : (s.setValb x).fault = s.fault := rfl
@[simp] theorem State.setValb_fop (s : State) (x : List Byte) : (s.setValb x).fop = s.fop := rfl
@[simp] theorem State.setValb_host (s : State) (x : List Byte) : (s.setValb x).host = s.host := rfl

@[simp] theorem State.setBuf_cfg (s : State) (x : List Byte) : (s.setBuf x).cfg = s.cfg := rfl
@[simp] theorem State.setBuf_regs (s : State) (x : List Byte) : (s.setBuf x).regs = s.regs := rfl
@[simp] theorem State.setBuf_mem (s : State) (x : List Byte) :
    (s.setBuf x).mem = { s.mem with buf := .put x } := rfl
@[simp] theorem State.setBuf_eos (s : State) (x : List Byte) : (s.setBuf x).eos = s.eos := rfl
@[simp] theorem State.setBuf_tooMany (s : State) (x : List Byte) : (s.setBuf x).tooMany = s.tooMany := rfl
@[simp] theorem State.setBuf_fault (s : State) (x : List Byte) : (s.setBuf x).fault = s.fault := rfl
@[simp] theorem State.setBuf_fop (s : State) (x : List Byte) : (s.setBuf x).fop = s.fop := rfl
@[simp] theorem State.setBuf_host (s : State) (x : List Byte) : (s.setBuf x).host = s.host := rfl

@[simp] theorem State.setPimg_cfg (s : State) (x : List Pixel) : (s.setPimg x).cfg = s.cfg := rfl
@[simp] theorem State.setPimg_regs (s : State) (x : List Pixel) : (s.setPimg x).regs = s.regs := rfl
@[simp] theorem State.setPimg_mem (s : State) (x : List Pixel) :
    (s.setPimg x).mem = { s.mem with pimg := .put x } := rfl
@[simp] theorem State.setPimg_eos (s : State) (x : List Pixel) : (s.setPimg x).eos = s.eos := rfl
@[simp] theorem State.setPimg_tooMany (s : State) (x : List Pixel) : (s.setPimg x).tooMany = s.tooMany := rfl
@[simp] theorem State.setPimg_fault (s : State) (x : List Pixel) : (s.setPimg x).fault = s.fault := rfl
@[simp] theorem State.setPimg_fop (s : State) (x : List Pixel) : (s.setPimg x).fop = s.fop := rfl
@[simp] theorem State.setPimg_host (s : State) (x : List Pixel) : (s.setPimg x).host = s.host := rfl

@[simp] theorem State.setEos_cfg (s : State) (x : Bool) : (s.setEos x).cfg = s.cfg := rfl
@[simp] theorem State.setEos_regs (s : State) (x : Bool) : (s.setEos x).regs = s.regs := rfl
@[simp] theorem State.setEos_mem (s : State) (x : Bool) : (s.setEos x).mem = s.mem := rfl
@[simp] theorem State.setEos_eos (s : State) (x : Bool) : (s.setEos x).eos = x := rfl
@[simp] theorem State.setEos_tooMany (s : State) (x : Bool) : (s.setEos x).tooMany = s.tooMany := rfl
@[simp] theorem State.setEos_fault (s : State) (x : Bool) : (s.setEos x).fault = s.fault := rfl
@[simp] theorem State.setEos_fop (s : State) (x : Bool) : (s.setEos x).fop = s.fop := rfl
@[simp] theorem State.setEos_host (s : State) (x : Bool) : (s.setEos x).host = s.host := rfl

@[simp] theorem State.setTooMany_cfg (s : State) (x : Bool) : (s.setTooMany x).cfg = s.cfg := rfl
@[simp] theorem State.setTooMany_regs (s : State) (x : Bool) : (s.setTooMany x).regs = s.regs := rfl
@[simp] theorem State.setTooMany_mem (s : State) (x : Bool) : (s.setTooMany x).mem = s.mem := rfl
@[simp] theorem State.setTooMany_eos (s : State) (x : Bool) : (s.setTooMany x).eos = s.eos := rfl
@[simp] theorem State.setTooMany_tooMany (s : State) (x : Bool) : (s.setTooMany x).tooMany = x := rfl
@[simp] theorem State.setTooMany_fault (s : State) (x : Bool) : (s.setTooMany x).fault = s.fault := rfl
@[simp] theorem State.setTooMany_fop (s : State) (x : Bool) : (s.setTooMany x).fop = s.fop := rfl
@[simp] theorem State.setTooMany_host (s : State) (x : Bool) : (s.setTooMany x).host = s.host := rfl

@[simp] theorem State.setCursor_cfg (s : State) (si bi : Nat) (e : Bool) :
    (s.setCursor si bi e).cfg = s.cfg := rfl
@[simp] theorem State.setCursor_regs (s : State) (si bi : Nat) (e : Bool) : (s.setCursor si bi e).regs = 
    { s.regs with si := .put (BitVec.ofNat 17 si), bi := .put (BitVec.ofNat 3 bi) } := rfl
@[simp] theorem State.setCursor_mem (s : State) (si bi : Nat) (e : Bool) :
    (s.setCursor si bi e).mem = s.mem := rfl
@[simp] theorem State.setCursor_eos (s : State) (si bi : Nat) (e : Bool) :
    (s.setCursor si bi e).eos = e := rfl
@[simp] theorem State.setCursor_tooMany (s : State) (si bi : Nat) (e : Bool) :
    (s.setCursor si bi e).tooMany = s.tooMany := rfl
@[simp] theorem State.setCursor_fault (s : State) (si bi : Nat) (e : Bool) :
    (s.setCursor si bi e).fault = s.fault := rfl
@[simp] theorem State.setCursor_fop (s : State) (si bi : Nat) (e : Bool) :
    (s.setCursor si bi e).fop = s.fop := rfl
@[simp] theorem State.setCursor_host (s : State) (si bi : Nat) (e : Bool) :
    (s.setCursor si bi e).host = s.host := rfl

@[simp] theorem takeFault_cfg (x : FaultCode) (op : Byte) (s : State) : (takeFault x op s).cfg = s.cfg := rfl
@[simp] theorem takeFault_regs (x : FaultCode) (op : Byte) (s : State) :
    (takeFault x op s).regs = s.regs := rfl
@[simp] theorem takeFault_mem (x : FaultCode) (op : Byte) (s : State) : (takeFault x op s).mem = s.mem := rfl
@[simp] theorem takeFault_eos (x : FaultCode) (op : Byte) (s : State) : (takeFault x op s).eos = s.eos := rfl
@[simp] theorem takeFault_tooMany (x : FaultCode) (op : Byte) (s : State) :
    (takeFault x op s).tooMany = s.tooMany := rfl
@[simp] theorem takeFault_fault (x : FaultCode) (op : Byte) (s : State) :
    (takeFault x op s).fault = x.code := rfl
@[simp] theorem takeFault_fop (x : FaultCode) (op : Byte) (s : State) : (takeFault x op s).fop = op := rfl
@[simp] theorem takeFault_host (x : FaultCode) (op : Byte) (s : State) :
    (takeFault x op s).host = s.host := rfl

@[simp] theorem resetBlock_cfg (s : State) : (resetBlock s).cfg = s.cfg := rfl
@[simp] theorem resetBlock_regs (s : State) : (resetBlock s).regs = Regs.reset := rfl
@[simp] theorem resetBlock_mem (s : State) : (resetBlock s).mem = Memory.reset := rfl
@[simp] theorem resetBlock_eos (s : State) : (resetBlock s).eos = false := rfl
@[simp] theorem resetBlock_tooMany (s : State) : (resetBlock s).tooMany = false := rfl
@[simp] theorem resetBlock_fault (s : State) : (resetBlock s).fault = 0 := rfl
@[simp] theorem resetBlock_fop (s : State) : (resetBlock s).fop = 0 := rfl
@[simp] theorem resetBlock_host (s : State) : (resetBlock s).host = s.host := rfl

end Sys2Proof.Machine
end

