-- ==== Sys2Proof/Laws/Ops.lean ====
section
/-! SUPPORT. One lemma per shared operation, saying once everything it can do: reading an operand, a requirement, a
step of a computation that may fault, running an operation, the host's moves. -/

namespace Sys2Proof.Machine

section Except

variable {ε α β : Type}

@[simp] theorem ok_bind (a : α) (f : α → Except ε β) : (Except.ok a >>= f) = f a := rfl

@[simp] theorem error_bind (e : ε) (f : α → Except ε β) : (Except.error e >>= f) = Except.error e := rfl

@[simp] theorem map_ok (a : α) (f : α → β) : (f <$> (Except.ok a : Except ε α)) = Except.ok (f a) := rfl

@[simp] theorem map_error (e : ε) (f : α → β) : (f <$> (Except.error e : Except ε α)) = Except.error e := rfl

@[simp] theorem pure_eq_ok (a : α) : (pure a : Except ε α) = Except.ok a := rfl

/-- A computation with a next part answers exactly when its first part does and the next part does from there. -/
theorem bind_eq_ok {x : Except ε α} {f : α → Except ε β} {b : β} :
    (x >>= f) = .ok b ↔ ∃ a, x = .ok a ∧ f a = .ok b := by
  cases x <;> simp

/-- A computation with a next part faults exactly when its first part does, or the next part does from there. -/
theorem bind_eq_error {x : Except ε α} {f : α → Except ε β} {e : ε} :
    (x >>= f) = .error e ↔ x = .error e ∨ ∃ a, x = .ok a ∧ f a = .error e := by
  cases x <;> simp

end Except

section Slot

variable {α : Type}

@[simp] theorem Slot.read_put (a : α) : (Slot.put a).read = .ok a := rfl

theorem Slot.read_of_invalid {x : Slot α} (h : x.valid = false) : x.read = .error .operandInvalid := by
  simp [Slot.read, h]

/-- Reading an operand answers exactly the value the place holds. -/
theorem Slot.read_eq_ok {x : Slot α} {a : α} : x.read = .ok a ↔ x = .put a := by
  rcases x with ⟨v, b⟩
  cases v <;> simp [Slot.read]

/-- Reading an operand faults exactly with `OperandInvalid` and exactly where the valid bit is clear. -/
theorem Slot.read_eq_error {x : Slot α} {e : FaultCode} :
    x.read = .error e ↔ x.valid = false ∧ e = .operandInvalid := by
  rcases x with ⟨v, b⟩
  cases v <;> simp [Slot.read, eq_comm]

theorem Slot.readIf_pos {x : Slot α} {p : Prop} [Decidable p] {d : α} (h : p) : x.readIf p d = x.read := by
  simp [Slot.readIf, h]

theorem Slot.readIf_neg {x : Slot α} {p : Prop} [Decidable p] {d : α} (h : ¬p) : x.readIf p d = .ok d := by
  simp [Slot.readIf, h]

/-- A conditional read answers the value the place holds, or the stand-in where the operand is not read. -/
theorem Slot.readIf_eq_ok {x : Slot α} {p : Prop} [Decidable p] {d a : α} :
    x.readIf p d = .ok a ↔ (p ∧ x = .put a) ∨ (¬p ∧ a = d) := by
  by_cases h : p
  · rw [readIf_pos h, read_eq_ok]
    simp [h]
  · rw [readIf_neg h]
    simp [h, eq_comm]

/-- A conditional read faults only with `OperandInvalid`, where the operand is read and its valid bit is clear. -/
theorem Slot.readIf_eq_error {x : Slot α} {p : Prop} [Decidable p] {d : α} {e : FaultCode} :
    x.readIf p d = .error e ↔ p ∧ x.valid = false ∧ e = .operandInvalid := by
  by_cases h : p <;> simp [Slot.readIf, h, Slot.read_eq_error]

end Slot

section Require

variable {p : Prop} [Decidable p] {f e : FaultCode}

theorem require_pos (h : p) : require p f = .ok () := by simp [require, h]

theorem require_neg (h : ¬p) : require p f = .error f := by simp [require, h]

/-- A requirement passes exactly when it holds. -/
theorem require_eq_ok {u : Unit} : require p f = .ok u ↔ p := by
  by_cases h : p <;> simp [require, h]

/-- A requirement that does not hold raises its own fault. -/
theorem require_eq_error : require p f = .error e ↔ ¬p ∧ e = f := by
  by_cases h : p <;> simp [require, h, eq_comm]

end Require

section RunOp

variable {i : Instr} {body : State → Except FaultCode State} {s t : State}

theorem runOp_faulted (h : s.fault ≠ 0) : runOp i body s = .next s := by
  unfold runOp
  rw [if_pos h]

theorem runOp_ok (h : s.fault = 0) (hb : body s = .ok t) : runOp i body s = .next t := by
  unfold runOp
  rw [if_neg (not_not.mpr h), hb]

theorem runOp_error {x : FaultCode} (h : s.fault = 0) (hb : body s = .error x) :
    runOp i body s = .next (takeFault x (encode i) s) := by
  unfold runOp
  rw [if_neg (not_not.mpr h), hb]

/-- Everything running an operation can do: nothing while a fault is recorded, else its effect, else its fault. -/
theorem runOp_eq_next :
    runOp i body s = .next t ↔
      (s.fault ≠ 0 ∧ t = s) ∨ (s.fault = 0 ∧ body s = .ok t) ∨
        (s.fault = 0 ∧ ∃ x, body s = .error x ∧ t = takeFault x (encode i) s) := by
  by_cases h : s.fault = 0
  · cases hb : body s with
    | ok u =>
      rw [runOp_ok h hb]
      simp [h]
    | error x =>
      rw [runOp_error h hb]
      simp only [h, Host.Outcome.next.injEq]
      constructor
      · rintro rfl
        exact .inr (.inr ⟨trivial, x, rfl, rfl⟩)
      · rintro (⟨h', -⟩ | ⟨-, h'⟩ | ⟨-, y, h', rfl⟩)
        · exact absurd rfl h'
        · cases h'
        · cases h'
          rfl
  · rw [runOp_faulted h]
    simp only [Host.Outcome.next.injEq, ne_eq, h, not_false_eq_true, true_and, false_and, or_false]
    exact eq_comm

/-- Running an operation always ends in a next state. -/
theorem runOp_completes (i : Instr) (body : State → Except FaultCode State) (s : State) :
    ∃ t, runOp i body s = .next t := by
  by_cases h : s.fault = 0
  · cases hb : body s with
    | ok u => exact ⟨u, runOp_ok h hb⟩
    | error x => exact ⟨_, runOp_error h hb⟩
  · exact ⟨s, runOp_faulted h⟩

end RunOp

section Host

variable {s t : State}

/-- Everything a write of one element can do when it answers a next state. -/
theorem pokeSlot_eq_next {α : Type} {b : Slot (List α)} {i : Nat} {x : α} {put : List α → State} :
    pokeSlot b i x put = .next t ↔ b.valid = true ∧ i < b.val.length ∧ t = put (b.val.set i x) := by
  unfold pokeSlot
  cases hv : b.valid
  · simp
  · by_cases hi : i < b.val.length <;> simp [hi, eq_comm]

theorem step_idle (h : s.host = []) : step s = .next s := by
  unfold step nextMove
  rw [h]

theorem step_move {m : HostMove} {ms : List HostMove} (h : s.host = m :: ms) :
    step s = makeMove m { s with host := ms } := by
  unfold step nextMove
  rw [h]

/-- Everything a step can do: hold the state where no move is pending, else make the first pending move. -/
theorem step_eq_next :
    step s = .next t ↔
      (s.host = [] ∧ t = s) ∨ ∃ m ms, s.host = m :: ms ∧ makeMove m { s with host := ms } = .next t := by
  cases h : s.host with
  | nil => simp [step_idle h, eq_comm]
  | cons m ms => simp [step_move h]

theorem writeCmd_of_decode {b : Byte} {i : Instr} (h : decode b = .ok i) : writeCmd b s = exec i s := by
  unfold writeCmd
  rw [h]

theorem writeCmd_of_illegal {b : Byte} {e : DecodeError} (h : decode b = .error e) :
    writeCmd b s = .next (illegalCommand b s) := by
  unfold writeCmd
  rw [h]

/-- A read leaves the state as it is, where it answers. -/
theorem makeMove_read {x : HostRead} : makeMove (.read x) s = .next t ↔ t = s ∧ ∃ v, hostRead x s = .ok v := by
  unfold makeMove
  cases h : hostRead x s <;> simp [h, eq_comm]

end Host

end Sys2Proof.Machine
end

