-- ==== Sys2Proof/Laws/Exec.lean ====
section
/-! SUPPORT. exec, instruction by instruction, as the running of one body. -/

namespace Sys2Proof.Machine

/-- The effect or the fault of each operation but `SYS.RESET`, which has no checks. -/
def opBody (i : Instr) : State → Except FaultCode State :=
  match i with
  | .sysReset => fun s => .ok (resetBlock s)
  | .vwiEnc => opVwiEnc
  | .vwiDec => opVwiDec
  | .chkPack => opChkPack
  | .chkGet => opChkGet
  | .seqPack => opSeqPack
  | .seqUnpack => opSeqUnpack
  | .fixPack => opFixPack
  | .fixUnpack => opFixUnpack
  | .curSet => opCurSet
  | .pixClean => opPixClean
  | .pixQuant => opPixQuant
  | .pixPack8 => opPixPack8
  | .clsCount => opClsCount
  | .clsFmt => opClsFmt
  | .genMono => opGenMono
  | .genVal => opGenVal
  | .genUnscr => opGenUnscr
  | .rleBin => opRleBin
  | .rleMv => opRleMv
  | .rlxBin => opRlxBin
  | .rlxMv => opRlxMv
  | .cntSearch => opCntSearch
  | .cntAsm => opCntAsm
  | .encodeImage => opEncodeImage
  | .cntParse => opCntParse
  | .pixRescr => opPixRescr
  | .palExpand => opPalExpand
  | .pixCrop => opPixCrop
  | .decodeImage => opDecodeImage

/-- Every operation but `SYS.RESET` is the running of its body. -/
theorem exec_eq_runOp {i : Instr} (h : i ≠ .sysReset) (s : State) : exec i s = runOp i (opBody i) s := by
  cases i <;> first | exact absurd rfl h | rfl

@[simp] theorem exec_sysReset (s : State) : exec .sysReset s = .next (resetBlock s) := rfl

/-- Every operation ends in a next state. -/
theorem exec_completes (i : Instr) (s : State) : ∃ t, exec i s = .next t := by
  by_cases h : i = .sysReset
  · subst h
    exact ⟨_, rfl⟩
  · rw [exec_eq_runOp h]
    exact runOp_completes i (opBody i) s

end Sys2Proof.Machine
end

