-- ==== Sys2Proof/Laws/Bodies.lean ====
section
/-! SUPPORT. One lemma per operation body: everything the body can do when it answers, its operands, its requirements
and its result. The composites' lemmas say the same in terms of their steps. -/

namespace Sys2Proof.Machine

theorem opVwiEnc_eq_ok {s t : State} :
    opVwiEnc s = .ok t ↔ ∃ v n,
      s.regs.v = .put v ∧ s.regs.n = .put n ∧ isChunkWidth n.toNat ∧ 1 ≤ v ∧ t = s.setSym (chop v n.toNat) := by
  simp only [opVwiEnc, bind_eq_ok, Slot.read_eq_ok, require_eq_ok, pure_eq_ok, Except.ok.injEq]
  constructor
  · rintro ⟨v, h0, n, h1, -, h2, -, h3, rfl⟩
    exact ⟨v, n, h0, h1, h2, h3, rfl⟩
  · rintro ⟨v, n, h0, h1, h2, h3, rfl⟩
    exact ⟨v, h0, n, h1, (), h2, (), h3, rfl⟩

theorem opChkPack_eq_ok {s t : State} :
    opChkPack s = .ok t ↔ ∃ sym n,
      s.mem.sym = .put sym ∧ s.regs.n = .put n ∧ isChunkWidth n.toNat ∧ (∀ g ∈ sym, g < 2 ^ n.toNat) ∧
      t = s.setRleb (packGroups sym n.toNat) := by
  simp only [opChkPack, bind_eq_ok, Slot.read_eq_ok, require_eq_ok, pure_eq_ok, Except.ok.injEq]
  constructor
  · rintro ⟨sym, h0, n, h1, -, h2, -, h3, rfl⟩
    exact ⟨sym, n, h0, h1, h2, h3, rfl⟩
  · rintro ⟨sym, n, h0, h1, h2, h3, rfl⟩
    exact ⟨sym, h0, n, h1, (), h2, (), h3, rfl⟩

theorem opSeqPack_eq_ok {s t : State} :
    opSeqPack s = .ok t ↔ ∃ run n,
      s.mem.run = .put run ∧ s.regs.n = .put n ∧ isChunkWidth n.toNat ∧ (∀ r ∈ run, 1 ≤ r) ∧
      t = s.setRleb (packSeq run n.toNat) := by
  simp only [opSeqPack, bind_eq_ok, Slot.read_eq_ok, require_eq_ok, pure_eq_ok, Except.ok.injEq]
  constructor
  · rintro ⟨run, h0, n, h1, -, h2, -, h3, rfl⟩
    exact ⟨run, n, h0, h1, h2, h3, rfl⟩
  · rintro ⟨run, n, h0, h1, h2, h3, rfl⟩
    exact ⟨run, h0, n, h1, (), h2, (), h3, rfl⟩

theorem opFixPack_eq_ok {s t : State} :
    opFixPack s = .ok t ↔ ∃ vals vn,
      s.mem.vals = .put vals ∧ s.regs.vn = .put vn ∧ isChunkWidth vn.toNat ∧
      (∀ x ∈ vals, x.toNat < 2 ^ vn.toNat) ∧ t = s.setValb (packGroups (vals.map BitVec.toNat) vn.toNat) := by
  simp only [opFixPack, bind_eq_ok, Slot.read_eq_ok, require_eq_ok, pure_eq_ok, Except.ok.injEq]
  constructor
  · rintro ⟨vals, h0, vn, h1, -, h2, -, h3, rfl⟩
    exact ⟨vals, vn, h0, h1, h2, h3, rfl⟩
  · rintro ⟨vals, vn, h0, h1, h2, h3, rfl⟩
    exact ⟨vals, h0, vn, h1, (), h2, (), h3, rfl⟩

theorem opFixUnpack_eq_ok {s t : State} :
    opFixUnpack s = .ok t ↔ ∃ buf rb re vn run,
      s.mem.buf = .put buf ∧ s.regs.rb = .put rb ∧ s.regs.re = .put re ∧ s.regs.vn = .put vn ∧
      s.mem.run = .put run ∧ isChunkWidth vn.toNat ∧ (rb.toNat ≤ re.toNat ∧ re.toNat ≤ buf.length) ∧
      re.toNat - rb.toNat = ceilDiv (run.length * vn.toNat) 8 ∧
      t = s.setVals (((groupsFrom buf re.toNat (8 * rb.toNat) vn.toNat).take run.length).map toByte) := by
  simp only [opFixUnpack, bind_eq_ok, Slot.read_eq_ok, require_eq_ok, pure_eq_ok, Except.ok.injEq]
  constructor
  · rintro ⟨buf, h0, rb, h1, re, h2, vn, h3, run, h4, -, h5, -, h6, -, h7, rfl⟩
    exact ⟨buf, rb, re, vn, run, h0, h1, h2, h3, h4, h5, h6, h7, rfl⟩
  · rintro ⟨buf, rb, re, vn, run, h0, h1, h2, h3, h4, h5, h6, h7, rfl⟩
    exact ⟨buf, h0, rb, h1, re, h2, vn, h3, run, h4, (), h5, (), h6, (), h7, rfl⟩

theorem opCurSet_eq_ok {s t : State} :
    opCurSet s = .ok t ↔ ∃ buf rb re,
      s.mem.buf = .put buf ∧ s.regs.rb = .put rb ∧ s.regs.re = .put re ∧
      (rb.toNat ≤ re.toNat ∧ re.toNat ≤ buf.length) ∧ t = s.setCursor rb.toNat 0 false := by
  simp only [opCurSet, bind_eq_ok, Slot.read_eq_ok, require_eq_ok, pure_eq_ok, Except.ok.injEq]
  constructor
  · rintro ⟨buf, h0, rb, h1, re, h2, -, h3, rfl⟩
    exact ⟨buf, rb, re, h0, h1, h2, h3, rfl⟩
  · rintro ⟨buf, rb, re, h0, h1, h2, h3, rfl⟩
    exact ⟨buf, h0, rb, h1, re, h2, (), h3, rfl⟩

theorem opPixClean_eq_ok {s t : State} :
    opPixClean s = .ok t ↔ ∃ img,
      s.mem.img = .put img ∧ t = s.setWimg (img.map cleanPixel) := by
  simp only [opPixClean, bind_eq_ok, Slot.read_eq_ok, pure_eq_ok, Except.ok.injEq]
  constructor
  · rintro ⟨img, h0, rfl⟩
    exact ⟨img, h0, rfl⟩
  · rintro ⟨img, h0, rfl⟩
    exact ⟨img, h0, rfl⟩

theorem opPixQuant_eq_ok {s t : State} :
    opPixQuant s = .ok t ↔ ∃ wimg,
      s.mem.wimg = .put wimg ∧ t = s.setWimg (wimg.map (quantPixel s.cfg)) := by
  simp only [opPixQuant, bind_eq_ok, Slot.read_eq_ok, pure_eq_ok, Except.ok.injEq]
  constructor
  · rintro ⟨wimg, h0, rfl⟩
    exact ⟨wimg, h0, rfl⟩
  · rintro ⟨wimg, h0, rfl⟩
    exact ⟨wimg, h0, rfl⟩

theorem opPixPack8_eq_ok {s t : State} :
    opPixPack8 s = .ok t ↔ ∃ wimg,
      s.mem.wimg = .put wimg ∧ t = s.setPk (wimg.map packArgb8) := by
  simp only [opPixPack8, bind_eq_ok, Slot.read_eq_ok, pure_eq_ok, Except.ok.injEq]
  constructor
  · rintro ⟨wimg, h0, rfl⟩
    exact ⟨wimg, h0, rfl⟩
  · rintro ⟨wimg, h0, rfl⟩
    exact ⟨wimg, h0, rfl⟩

theorem opClsCount_eq_ok {s t : State} :
    opClsCount s = .ok t ↔ ∃ pk,
      s.mem.pk = .put pk ∧
      t = (s.setPal (orderPalette s.cfg pk (countColors [] pk).1)).setTooMany (countColors [] pk).2 := by
  simp only [opClsCount, bind_eq_ok, Slot.read_eq_ok, pure_eq_ok, Except.ok.injEq]
  constructor
  · rintro ⟨pk, h0, rfl⟩
    exact ⟨pk, h0, rfl⟩
  · rintro ⟨pk, h0, rfl⟩
    exact ⟨pk, h0, rfl⟩

theorem opGenMono_eq_ok {s t : State} :
    opGenMono s = .ok t ↔ ∃ pk w h pw fmt,
      s.mem.pk = .put pk ∧ s.regs.w = .put w ∧ s.regs.h = .put h ∧ s.regs.pw = .put pw ∧ s.regs.fmt = .put fmt ∧
      (1 ≤ w.toNat ∧ 1 ≤ h.toNat ∧ 1 ≤ pw.toNat) ∧
      (fmt = 0 ∧ w.toNat ≤ pw.toNat ∧ pk.length = w.toNat * h.toNat) ∧
      (∀ c ∈ pk, (monoOf s.cfg c).isSome = true) ∧
      t = s.setStr (mapRows w.toNat (padRow w.toNat pw.toNat (fun c => (monoOf s.cfg c).getD 0)) h.toNat pk) := by
  simp only [opGenMono, bind_eq_ok, Slot.read_eq_ok, require_eq_ok, pure_eq_ok, Except.ok.injEq]
  constructor
  · rintro ⟨pk, h0, w, h1, h, h2, pw, h3, fmt, h4, -, h5, -, h6, -, h7, rfl⟩
    exact ⟨pk, w, h, pw, fmt, h0, h1, h2, h3, h4, h5, h6, h7, rfl⟩
  · rintro ⟨pk, w, h, pw, fmt, h0, h1, h2, h3, h4, h5, h6, h7, rfl⟩
    exact ⟨pk, h0, w, h1, h, h2, pw, h3, fmt, h4, (), h5, (), h6, (), h7, rfl⟩

theorem opGenVal_eq_ok {s t : State} :
    opGenVal s = .ok t ↔ ∃ pk fmt w h pw pal,
      s.mem.pk = .put pk ∧ s.regs.fmt = .put fmt ∧ s.regs.w = .put w ∧ s.regs.h = .put h ∧ s.regs.pw = .put pw ∧
      ((2 ≤ fmt.toNat ∧ s.mem.pal = .put pal) ∨ (¬2 ≤ fmt.toNat ∧ pal = [])) ∧
      (1 ≤ w.toNat ∧ 1 ≤ h.toNat ∧ 1 ≤ pw.toNat) ∧
      ((1 ≤ fmt.toNat ∧ fmt.toNat ≤ 4) ∧ w.toNat ≤ pw.toNat ∧ pk.length = w.toNat * h.toNat) ∧
      (2 ≤ fmt.toNat → ∀ c ∈ pk, c ∈ pal) ∧ t = s.setStr (mapRows w.toNat (padRow w.toNat pw.toNat
          (fun c => if fmt.toNat = 1 then c else indexByte (paletteIndex pal c))) h.toNat pk) := by
  simp only [opGenVal, bind_eq_ok, Slot.read_eq_ok, Slot.readIf_eq_ok, require_eq_ok, pure_eq_ok, Except.ok.injEq]
  constructor
  · rintro ⟨pk, h0, fmt, h1, w, h2, h, h3, pw, h4, pal, h5, -, h6, -, h7, -, h8, rfl⟩
    exact ⟨pk, fmt, w, h, pw, pal, h0, h1, h2, h3, h4, h5, h6, h7, h8, rfl⟩
  · rintro ⟨pk, fmt, w, h, pw, pal, h0, h1, h2, h3, h4, h5, h6, h7, h8, rfl⟩
    exact ⟨pk, h0, fmt, h1, w, h2, h, h3, pw, h4, pal, h5, (), h6, (), h7, (), h8, rfl⟩

theorem opGenUnscr_eq_ok {s t : State} :
    opGenUnscr s = .ok t ↔ ∃ str pw h,
      s.mem.str = .put str ∧ s.regs.pw = .put pw ∧ s.regs.h = .put h ∧ (1 ≤ pw.toNat ∧ 1 ≤ h.toNat) ∧
      str.length = pw.toNat * h.toNat ∧ t = s.setStr (unscreen pw.toNat str) := by
  simp only [opGenUnscr, bind_eq_ok, Slot.read_eq_ok, require_eq_ok, pure_eq_ok, Except.ok.injEq]
  constructor
  · rintro ⟨str, h0, pw, h1, h, h2, -, h3, -, h4, rfl⟩
    exact ⟨str, pw, h, h0, h1, h2, h3, h4, rfl⟩
  · rintro ⟨str, pw, h, h0, h1, h2, h3, h4, rfl⟩
    exact ⟨str, h0, pw, h1, h, h2, (), h3, (), h4, rfl⟩

theorem opRleBin_eq_ok {s t : State} :
    opRleBin s = .ok t ↔ ∃ str,
      s.mem.str = .put str ∧ (∀ x ∈ str, x = 0 ∨ x = 255) ∧ t = s.setRun (runsBinary str) := by
  simp only [opRleBin, bind_eq_ok, Slot.read_eq_ok, require_eq_ok, pure_eq_ok, Except.ok.injEq]
  constructor
  · rintro ⟨str, h0, -, h1, rfl⟩
    exact ⟨str, h0, h1, rfl⟩
  · rintro ⟨str, h0, h1, rfl⟩
    exact ⟨str, h0, (), h1, rfl⟩

theorem opRleMv_eq_ok {s t : State} :
    opRleMv s = .ok t ↔ ∃ str,
      s.mem.str = .put str ∧ t = (s.setRun (runsMulti str).2).setVals (runsMulti str).1 := by
  simp only [opRleMv, bind_eq_ok, Slot.read_eq_ok, pure_eq_ok, Except.ok.injEq]
  constructor
  · rintro ⟨str, h0, rfl⟩
    exact ⟨str, h0, rfl⟩
  · rintro ⟨str, h0, rfl⟩
    exact ⟨str, h0, rfl⟩

theorem opRlxBin_eq_ok {s t : State} :
    opRlxBin s = .ok t ↔ ∃ run pw h,
      s.mem.run = .put run ∧ s.regs.pw = .put pw ∧ s.regs.h = .put h ∧ (1 ≤ pw.toNat ∧ 1 ≤ h.toNat) ∧
      (∀ r ∈ run, 1 ≤ r) ∧ run.sum = pw.toNat * h.toNat + 1 ∧ t = s.setStr ((expandBinary 0 run).drop 1) := by
  simp only [opRlxBin, bind_eq_ok, Slot.read_eq_ok, require_eq_ok, pure_eq_ok, Except.ok.injEq]
  constructor
  · rintro ⟨run, h0, pw, h1, h, h2, -, h3, -, h4, -, h5, rfl⟩
    exact ⟨run, pw, h, h0, h1, h2, h3, h4, h5, rfl⟩
  · rintro ⟨run, pw, h, h0, h1, h2, h3, h4, h5, rfl⟩
    exact ⟨run, h0, pw, h1, h, h2, (), h3, (), h4, (), h5, rfl⟩

theorem opRlxMv_eq_ok {s t : State} :
    opRlxMv s = .ok t ↔ ∃ run vals pw h,
      s.mem.run = .put run ∧ s.mem.vals = .put vals ∧ s.regs.pw = .put pw ∧ s.regs.h = .put h ∧
      (1 ≤ pw.toNat ∧ 1 ≤ h.toNat) ∧ (∀ r ∈ run, 1 ≤ r) ∧ vals.length = run.length ∧
      run.sum = pw.toNat * h.toNat ∧ t = s.setStr (expandMulti vals run) := by
  simp only [opRlxMv, bind_eq_ok, Slot.read_eq_ok, require_eq_ok, pure_eq_ok, Except.ok.injEq]
  constructor
  · rintro ⟨run, h0, vals, h1, pw, h2, h, h3, -, h4, -, h5, -, h6, -, h7, rfl⟩
    exact ⟨run, vals, pw, h, h0, h1, h2, h3, h4, h5, h6, h7, rfl⟩
  · rintro ⟨run, vals, pw, h, h0, h1, h2, h3, h4, h5, h6, h7, rfl⟩
    exact ⟨run, h0, vals, h1, pw, h2, h, h3, (), h4, (), h5, (), h6, (), h7, rfl⟩

theorem opPixRescr_eq_ok {s t : State} :
    opPixRescr s = .ok t ↔ ∃ str pw h,
      s.mem.str = .put str ∧ s.regs.pw = .put pw ∧ s.regs.h = .put h ∧ (1 ≤ pw.toNat ∧ 1 ≤ h.toNat) ∧
      str.length = pw.toNat * h.toNat ∧ (∀ x ∈ str, x = 0 ∨ x = 1) ∧ t = s.setStr (rescreen pw.toNat str) := by
  simp only [opPixRescr, bind_eq_ok, Slot.read_eq_ok, require_eq_ok, pure_eq_ok, Except.ok.injEq]
  constructor
  · rintro ⟨str, h0, pw, h1, h, h2, -, h3, -, h4, -, h5, rfl⟩
    exact ⟨str, pw, h, h0, h1, h2, h3, h4, h5, rfl⟩
  · rintro ⟨str, pw, h, h0, h1, h2, h3, h4, h5, rfl⟩
    exact ⟨str, h0, pw, h1, h, h2, (), h3, (), h4, (), h5, rfl⟩

theorem opPalExpand_eq_ok {s t : State} :
    opPalExpand s = .ok t ↔ ∃ str fmt pw h pal,
      s.mem.str = .put str ∧ s.regs.fmt = .put fmt ∧ s.regs.pw = .put pw ∧ s.regs.h = .put h ∧
      ((2 ≤ fmt.toNat ∧ s.mem.pal = .put pal) ∨ (¬2 ≤ fmt.toNat ∧ pal = [])) ∧ (1 ≤ pw.toNat ∧ 1 ≤ h.toNat) ∧
      (fmt.toNat ≤ 4 ∧ str.length = pw.toNat * h.toNat) ∧ (fmt = 0 → ∀ x ∈ str, x = 0 ∨ x = 1) ∧
      paletteFits fmt.toNat pal.length ∧ (2 ≤ fmt.toNat → ∀ x ∈ str, x.toNat < pal.length) ∧
      t = s.setPimg (str.map (expandPixel fmt.toNat pal)) := by
  simp only [opPalExpand, bind_eq_ok, Slot.read_eq_ok, Slot.readIf_eq_ok, require_eq_ok, pure_eq_ok, Except.ok.injEq]
  constructor
  · rintro ⟨str, h0, fmt, h1, pw, h2, h, h3, pal, h4, -, h5, -, h6, -, h7, -, h8, -, h9, rfl⟩
    exact ⟨str, fmt, pw, h, pal, h0, h1, h2, h3, h4, h5, h6, h7, h8, h9, rfl⟩
  · rintro ⟨str, fmt, pw, h, pal, h0, h1, h2, h3, h4, h5, h6, h7, h8, h9, rfl⟩
    exact ⟨str, h0, fmt, h1, pw, h2, h, h3, pal, h4, (), h5, (), h6, (), h7, (), h8, (), h9, rfl⟩

theorem opPixCrop_eq_ok {s t : State} :
    opPixCrop s = .ok t ↔ ∃ pimg w h pw,
      s.mem.pimg = .put pimg ∧ s.regs.w = .put w ∧ s.regs.h = .put h ∧ s.regs.pw = .put pw ∧
      (1 ≤ w.toNat ∧ 1 ≤ h.toNat ∧ 1 ≤ pw.toNat) ∧ (w.toNat ≤ pw.toNat ∧ pimg.length = pw.toNat * h.toNat) ∧
      t = s.setImg (mapRows pw.toNat (fun row => row.take w.toNat) h.toNat pimg) := by
  simp only [opPixCrop, bind_eq_ok, Slot.read_eq_ok, require_eq_ok, pure_eq_ok, Except.ok.injEq]
  constructor
  · rintro ⟨pimg, h0, w, h1, h, h2, pw, h3, -, h4, -, h5, rfl⟩
    exact ⟨pimg, w, h, pw, h0, h1, h2, h3, h4, h5, rfl⟩
  · rintro ⟨pimg, w, h, pw, h0, h1, h2, h3, h4, h5, rfl⟩
    exact ⟨pimg, h0, w, h1, h, h2, pw, h3, (), h4, (), h5, rfl⟩

theorem opCntAsm_eq_ok {s t : State} :
    opCntAsm s = .ok t ↔ ∃ w h n us fmt rleb vb pb,
      s.regs.w = .put w ∧ s.regs.h = .put h ∧ s.regs.n = .put n ∧ s.regs.us = .put us ∧ s.regs.fmt = .put fmt ∧
      s.mem.rleb = .put rleb ∧ ((1 ≤ fmt.toNat ∧ s.mem.valb = .put vb) ∨ (¬1 ≤ fmt.toNat ∧ vb = [])) ∧
      ((2 ≤ fmt.toNat ∧ s.mem.pal = .put pb) ∨ (¬2 ≤ fmt.toNat ∧ pb = [])) ∧ (1 ≤ w.toNat ∧ 1 ≤ h.toNat) ∧
      isChunkWidth n.toNat ∧ fmt.toNat ≤ 4 ∧ (us = 0 ∨ fmt = 0) ∧ paletteFits fmt.toNat pb.length ∧
      (8 + rleb.length + vb.length + pb.length ≤ s.cfg.containerMax ∧ 8 + rleb.length + vb.length ≤ 65535) ∧
      t = ((s.setBuf (headerBytes w.toNat h.toNat n.toNat us.toNat fmt.toNat (8 + rleb.length)
          (8 + rleb.length + vb.length) ++ rleb ++ vb ++ pb)).setF4 (BitVec.ofNat 16 (8 + rleb.length))).setF6
          (BitVec.ofNat 16 (8 + rleb.length + vb.length)) := by
  simp only [opCntAsm, bind_eq_ok, Slot.read_eq_ok, Slot.readIf_eq_ok, require_eq_ok, pure_eq_ok, Except.ok.injEq]
  constructor
  · rintro ⟨w, h0, h, h1, n, h2, us, h3, fmt, h4, rleb, h5, vb, h6, pb, h7, -, h8, -, h9, -, h10, -, h11, -, h12, -, h13, rfl⟩
    exact ⟨w, h, n, us, fmt, rleb, vb, pb, h0, h1, h2, h3, h4, h5, h6, h7, h8, h9, h10, h11, h12, h13, rfl⟩
  · rintro ⟨w, h, n, us, fmt, rleb, vb, pb, h0, h1, h2, h3, h4, h5, h6, h7, h8, h9, h10, h11, h12, h13, rfl⟩
    exact ⟨w, h0, h, h1, n, h2, us, h3, fmt, h4, rleb, h5, vb, h6, pb, h7, (), h8, (), h9, (), h10, (), h11, (), h12, (), h13, rfl⟩

theorem opCntSearch_eq_ok {s t : State} :
    opCntSearch s = .ok t ↔ ∃ fmt run str pw h best,
      s.regs.fmt = .put fmt ∧ s.mem.run = .put run ∧
      ((screened s.cfg fmt.toNat ∧ s.mem.str = .put str) ∨ (¬(screened s.cfg fmt.toNat) ∧ str = [])) ∧
      ((screened s.cfg fmt.toNat ∧ s.regs.pw = .put pw) ∨ (¬(screened s.cfg fmt.toNat) ∧ pw = 0)) ∧
      ((screened s.cfg fmt.toNat ∧ s.regs.h = .put h) ∨ (¬(screened s.cfg fmt.toNat) ∧ h = 0)) ∧ fmt.toNat ≤ 4 ∧
      (∀ r ∈ run, 1 ≤ r) ∧ (screened s.cfg fmt.toNat → 1 ≤ pw.toNat ∧ 1 ≤ h.toNat) ∧
      (screened s.cfg fmt.toNat → str.length = pw.toNat * h.toNat ∧ ∀ x ∈ str, x = 0 ∨ x = 255) ∧ search run (if screened s.cfg fmt.toNat then [⟨1, 1, runsBinary (unscreen pw.toNat str)⟩] else []) =
          .ok best ∧ t = ((s.setN (BitVec.ofNat 7 best.n)).setUs best.us).setRleb best.bytes := by
  simp only [opCntSearch, bind_eq_ok, Slot.read_eq_ok, Slot.readIf_eq_ok, require_eq_ok, pure_eq_ok, Except.ok.injEq]
  constructor
  · rintro ⟨fmt, h0, run, h1, str, h2, pw, h3, h, h4, -, h5, -, h6, -, h7, -, h8, best, h9, rfl⟩
    exact ⟨fmt, run, str, pw, h, best, h0, h1, h2, h3, h4, h5, h6, h7, h8, h9, rfl⟩
  · rintro ⟨fmt, run, str, pw, h, best, h0, h1, h2, h3, h4, h5, h6, h7, h8, h9, rfl⟩
    exact ⟨fmt, h0, run, h1, str, h2, pw, h3, h, h4, (), h5, (), h6, (), h7, (), h8, best, h9, rfl⟩

theorem opClsFmt_eq_ok {s t : State} :
    opClsFmt s = .ok t ↔ ∃ var pal w f,
      s.regs.var = .put var ∧ s.mem.pal = .put pal ∧ s.regs.w = .put w ∧ 1 ≤ w.toNat ∧
      (s.tooMany = true ∨ 1 ≤ pal.length) ∧ classify s.cfg var s.tooMany pal = .ok f ∧ t = (if 1 ≤ f then ((s.setFmt (BitVec.ofNat 8 f)).setPw (BitVec.ofNat 9 (paddedWidth f w.toNat))).setVn
          (BitVec.ofNat 4 (valueWidth f))
        else (s.setFmt (BitVec.ofNat 8 f)).setPw (BitVec.ofNat 9 (paddedWidth f w.toNat))) := by
  simp only [opClsFmt, bind_eq_ok, Slot.read_eq_ok, require_eq_ok, pure_eq_ok, Except.ok.injEq]
  constructor
  · rintro ⟨var, h0, pal, h1, w, h2, -, h3, -, h4, f, h5, rfl⟩
    exact ⟨var, pal, w, f, h0, h1, h2, h3, h4, h5, rfl⟩
  · rintro ⟨var, pal, w, f, h0, h1, h2, h3, h4, h5, rfl⟩
    exact ⟨var, h0, pal, h1, w, h2, (), h3, (), h4, f, h5, rfl⟩

theorem opVwiDec_eq_ok {s t : State} :
    opVwiDec s = .ok t ↔ ∃ buf re si bi n,
      s.mem.buf = .put buf ∧ s.regs.re = .put re ∧ s.regs.si = .put si ∧ s.regs.bi = .put bi ∧
      s.regs.n = .put n ∧ isChunkWidth n.toNat ∧ re.toNat ≤ buf.length ∧
      (si.toNat < re.toNat ∨ (si = re ∧ bi = 0)) ∧ bi.toNat % n.toNat = 0 ∧
      ((∃ v p, nextValue buf re.toNat (8 * si.toNat + bi.toNat) n.toNat = .value v p ∧ fitsVBits s.cfg v = true ∧
          t = (s.setV v).setCursor (p / 8) (p % 8) false) ∨
        (∃ p, nextValue buf re.toNat (8 * si.toNat + bi.toNat) n.toNat = .endOfStream p ∧
          t = (s.setV 0).setCursor re.toNat 0 true)) := by
  simp only [opVwiDec, bind_eq_ok, Slot.read_eq_ok, require_eq_ok]
  constructor
  · rintro ⟨buf, h0, re, h1, si, h2, bi, h3, n, h4, -, h5, -, h6, -, h7, -, h8, h⟩
    refine ⟨buf, re, si, bi, n, h0, h1, h2, h3, h4, h5, h6, h7, h8, ?_⟩
    cases hn : nextValue buf re.toNat (8 * si.toNat + bi.toNat) n.toNat with
    | value v p =>
      rw [hn] at h
      simp only [bind_eq_ok, require_eq_ok, pure_eq_ok, Except.ok.injEq] at h
      obtain ⟨-, hf, rfl⟩ := h
      exact .inl ⟨v, p, rfl, hf, rfl⟩
    | endOfStream p =>
      rw [hn] at h
      cases h
      exact .inr ⟨p, rfl, rfl⟩
    | truncated =>
      rw [hn] at h
      cases h
  · rintro ⟨buf, re, si, bi, n, h0, h1, h2, h3, h4, h5, h6, h7, h8, ⟨v, p, hn, hf, rfl⟩ | ⟨p, hn, rfl⟩⟩
    · refine ⟨buf, h0, re, h1, si, h2, bi, h3, n, h4, (), h5, (), h6, (), h7, (), h8, ?_⟩
      rw [hn]
      simp [require_pos hf]
    · refine ⟨buf, h0, re, h1, si, h2, bi, h3, n, h4, (), h5, (), h6, (), h7, (), h8, ?_⟩
      rw [hn]
      rfl

theorem opSeqUnpack_eq_ok {s t : State} :
    opSeqUnpack s = .ok t ↔ ∃ buf rb re n r,
      s.mem.buf = .put buf ∧ s.regs.rb = .put rb ∧ s.regs.re = .put re ∧ s.regs.n = .put n ∧
      isChunkWidth n.toNat ∧ (rb.toNat ≤ re.toNat ∧ re.toNat ≤ buf.length) ∧
      unpackSeq buf rb.toNat re.toNat n.toNat = some r ∧ (∀ v ∈ r, fitsVBits s.cfg v = true) ∧
      t = (s.setRun r).setCursor re.toNat 0 true := by
  simp only [opSeqUnpack, bind_eq_ok, Slot.read_eq_ok, require_eq_ok]
  constructor
  · rintro ⟨buf, h0, rb, h1, re, h2, n, h3, -, h4, -, h5, h⟩
    cases hu : unpackSeq buf rb.toNat re.toNat n.toNat with
    | none =>
      rw [hu] at h
      cases h
    | some r =>
      rw [hu] at h
      simp only [bind_eq_ok, require_eq_ok, pure_eq_ok, Except.ok.injEq] at h
      obtain ⟨-, hf, rfl⟩ := h
      exact ⟨buf, rb, re, n, r, h0, h1, h2, h3, h4, h5, hu, hf, rfl⟩
  · rintro ⟨buf, rb, re, n, r, h0, h1, h2, h3, h4, h5, hu, hf, rfl⟩
    refine ⟨buf, h0, rb, h1, re, h2, n, h3, (), h4, (), h5, ?_⟩
    rw [hu]
    simp [require_pos hf]

theorem opChkGet_eq_ok {s t : State} :
    opChkGet s = .ok t ↔ ∃ buf re si bi n,
      s.mem.buf = .put buf ∧ s.regs.re = .put re ∧ s.regs.si = .put si ∧ s.regs.bi = .put bi ∧
      s.regs.n = .put n ∧ isChunkWidth n.toNat ∧ re.toNat ≤ buf.length ∧
      (si.toNat < re.toNat ∨ (si = re ∧ bi = 0)) ∧ bi.toNat % n.toNat = 0 ∧
      t = if si = re then (s.setV 0).setCursor si.toNat bi.toNat true
        else if bi.toNat + n.toNat = 8 then
          (s.setV (group buf (8 * si.toNat + bi.toNat) n.toNat)).setCursor (si.toNat + 1) 0 false
        else (s.setV (group buf (8 * si.toNat + bi.toNat) n.toNat)).setCursor si.toNat (bi.toNat + n.toNat) false := by
  simp only [opChkGet, bind_eq_ok, Slot.read_eq_ok, require_eq_ok]
  constructor
  · rintro ⟨buf, h0, re, h1, si, h2, bi, h3, n, h4, -, h5, -, h6, -, h7, -, h8, h⟩
    refine ⟨buf, re, si, bi, n, h0, h1, h2, h3, h4, h5, h6, h7, h8, ?_⟩
    split at h
    · cases h
      simp_all
    · split at h <;> cases h <;> simp_all
  · rintro ⟨buf, re, si, bi, n, h0, h1, h2, h3, h4, h5, h6, h7, h8, rfl⟩
    refine ⟨buf, h0, re, h1, si, h2, bi, h3, n, h4, (), h5, (), h6, (), h7, (), h8, ?_⟩
    split
    · rfl
    · split <;> rfl

theorem packCandidate_eq_ok {c : Candidate} {p : Packed} :
    packCandidate c = .ok p ↔
      unpackSeq (packSeq c.seq c.n) 0 (packSeq c.seq c.n).length c.n = some c.seq ∧
        p = ⟨c.n, c.us, packSeq c.seq c.n⟩ := by
  simp only [packCandidate, bind_eq_ok, require_eq_ok, pure_eq_ok, Except.ok.injEq]
  constructor
  · rintro ⟨-, h, rfl⟩
    exact ⟨h, rfl⟩
  · rintro ⟨h, rfl⟩
    exact ⟨(), h, rfl⟩

theorem encodeFront_eq_ok {s t : State} :
    encodeFront s = .ok t ↔ ∃ s1 s2 s3 s4,
      opPixClean s = .ok s1 ∧ opPixQuant s1 = .ok s2 ∧ opPixPack8 s2 = .ok s3 ∧ opClsCount s3 = .ok s4 ∧
        opClsFmt s4 = .ok t := by
  simp only [encodeFront, bind_eq_ok]
  constructor
  · rintro ⟨s1, h1, s2, h2, s3, h3, s4, h4, h⟩
    exact ⟨s1, s2, s3, s4, h1, h2, h3, h4, h⟩
  · rintro ⟨s1, s2, s3, s4, h1, h2, h3, h4, h⟩
    exact ⟨s1, h1, s2, h2, s3, h3, s4, h4, h⟩

theorem encodeMono_eq_ok {s t : State} :
    encodeMono s = .ok t ↔ ∃ s1 s2 s3,
      opGenMono s = .ok s1 ∧ opRleBin s1 = .ok s2 ∧ opCntSearch s2 = .ok s3 ∧ opCntAsm s3 = .ok t := by
  simp only [encodeMono, bind_eq_ok]
  constructor
  · rintro ⟨s1, h1, s2, h2, s3, h3, h⟩
    exact ⟨s1, s2, s3, h1, h2, h3, h⟩
  · rintro ⟨s1, s2, s3, h1, h2, h3, h⟩
    exact ⟨s1, h1, s2, h2, s3, h3, h⟩

theorem encodeValues_eq_ok {s t : State} :
    encodeValues s = .ok t ↔ ∃ s1 s2 s3 s4,
      opGenVal s = .ok s1 ∧ opRleMv s1 = .ok s2 ∧ opCntSearch s2 = .ok s3 ∧ opFixPack s3 = .ok s4 ∧
        opCntAsm s4 = .ok t := by
  simp only [encodeValues, bind_eq_ok]
  constructor
  · rintro ⟨s1, h1, s2, h2, s3, h3, s4, h4, h⟩
    exact ⟨s1, s2, s3, s4, h1, h2, h3, h4, h⟩
  · rintro ⟨s1, s2, s3, s4, h1, h2, h3, h4, h⟩
    exact ⟨s1, h1, s2, h2, s3, h3, s4, h4, h⟩

theorem opEncodeImage_eq_ok {s t : State} :
    opEncodeImage s = .ok t ↔ ∃ img w h var s1 fmt,
      s.mem.img = .put img ∧ s.regs.w = .put w ∧ s.regs.h = .put h ∧ s.regs.var = .put var ∧
      (1 ≤ w.toNat ∧ 1 ≤ h.toNat) ∧ img.length = w.toNat * h.toNat ∧ encodeFront s = .ok s1 ∧
      s1.regs.fmt = .put fmt ∧ encodeBack fmt s1 = .ok t := by
  simp only [opEncodeImage, bind_eq_ok, Slot.read_eq_ok, require_eq_ok]
  constructor
  · rintro ⟨img, h0, w, h1, h, h2, var, h3, -, h4, -, h5, s1, h6, fmt, h7, h8⟩
    exact ⟨img, w, h, var, s1, fmt, h0, h1, h2, h3, h4, h5, h6, h7, h8⟩
  · rintro ⟨img, w, h, var, s1, fmt, h0, h1, h2, h3, h4, h5, h6, h7, h8⟩
    exact ⟨img, h0, w, h1, h, h2, var, h3, (), h4, (), h5, s1, h6, fmt, h7, h8⟩

theorem decodeMono_eq_ok {s t : State} :
    decodeMono s = .ok t ↔ ∃ us s1, s.regs.us = .put us ∧ opRlxBin s = .ok s1 ∧
      ((us = 1 ∧ s1.cfg.unscreen = .symmetric) ∧ opPixRescr s1 = .ok t ∨
        ¬(us = 1 ∧ s1.cfg.unscreen = .symmetric) ∧ t = s1) := by
  simp only [decodeMono, bind_eq_ok, Slot.read_eq_ok]
  constructor
  · rintro ⟨us, h0, s1, h1, h⟩
    refine ⟨us, s1, h0, h1, ?_⟩
    split at h
    · exact .inl ⟨by assumption, h⟩
    · cases h
      exact .inr ⟨by assumption, rfl⟩
  · rintro ⟨us, s1, h0, h1, ⟨hc, h⟩ | ⟨hc, rfl⟩⟩
    · exact ⟨us, h0, s1, h1, by rw [if_pos hc]; exact h⟩
    · exact ⟨us, h0, _, h1, by rw [if_neg hc]; rfl⟩

theorem decodeValues_eq_ok {s t : State} :
    decodeValues s = .ok t ↔ ∃ f4 f6 s1, s.regs.f4 = .put f4 ∧ s.regs.f6 = .put f6 ∧
      opFixUnpack ((s.setRb (f4.setWidth 17)).setRe (f6.setWidth 17)) = .ok s1 ∧ opRlxMv s1 = .ok t := by
  simp only [decodeValues, bind_eq_ok, Slot.read_eq_ok]
  constructor
  · rintro ⟨f4, h0, f6, h1, s1, h2, h⟩
    exact ⟨f4, f6, s1, h0, h1, h2, h⟩
  · rintro ⟨f4, f6, s1, h0, h1, h2, h⟩
    exact ⟨f4, h0, f6, h1, s1, h2, h⟩

theorem opDecodeImage_eq_ok {s t : State} :
    opDecodeImage s = .ok t ↔ ∃ s1 fmt us s2 s3 s4,
      opCntParse s = .ok s1 ∧ s1.regs.fmt = .put fmt ∧ s1.regs.us = .put us ∧
      ¬(fmt = 0 ∧ us = 1 ∧ s1.cfg.unscreen = .off) ∧ opSeqUnpack s1 = .ok s2 ∧
      decodeStream fmt s2 = .ok s3 ∧ opPalExpand s3 = .ok s4 ∧
      opPixCrop s4 = .ok t := by
  simp only [opDecodeImage, bind_eq_ok, Slot.read_eq_ok, require_eq_ok]
  constructor
  · rintro ⟨s1, h0, fmt, h1, us, h2, -, h3, s2, h4, s3, h5, s4, h6, h⟩
    exact ⟨s1, fmt, us, s2, s3, s4, h0, h1, h2, h3, h4, h5, h6, h⟩
  · rintro ⟨s1, fmt, us, s2, s3, s4, h0, h1, h2, h3, h4, h5, h6, h⟩
    exact ⟨s1, h0, fmt, h1, us, h2, (), h3, s2, h4, s3, h5, s4, h6, h⟩

/-- The state `CNT.PARSE` leaves when it accepts the container `buf` (44_decoder_pipeline.md R261). -/
def parsed (s : State) (buf : List Byte) : State :=
  let w := memRead1 buf 0
  let cs := memRead1 buf 2
  let f := memRead1 buf 3
  let f4 := memRead2 buf 4
  let f6 := memRead2 buf 6
  let t := ((((((s.setW (BitVec.ofNat 8 w)).setH (BitVec.ofNat 8 (memRead1 buf 1))).setN
    (BitVec.ofNat 7 (cs % 128))).setUs (BitVec.ofNat 1 (cs / 128))).setFmt (BitVec.ofNat 8 f)).setF4
    (BitVec.ofNat 16 f4)).setF6 (BitVec.ofNat 16 f6)
  let t := t.setPw (BitVec.ofNat 9 (paddedWidth f w))
  let t := if 1 ≤ f then t.setVn (BitVec.ofNat 4 (valueWidth f)) else t
  (((t.setPal (buf.drop f6)).setRb 8).setRe (BitVec.ofNat 17 f4)).setCursor 8 0 false

theorem opCntParse_eq_ok {s t : State} :
    opCntParse s = .ok t ↔ ∃ buf, s.mem.buf = .put buf ∧ 8 ≤ buf.length ∧ buf.length ≤ s.cfg.containerMax ∧
      memRead1 buf 3 ≤ 4 ∧ isChunkWidth (memRead1 buf 2 % 128) ∧
      (8 ≤ memRead2 buf 4 ∧ memRead2 buf 4 ≤ memRead2 buf 6 ∧ memRead2 buf 6 ≤ buf.length) ∧
      (memRead1 buf 3 = 0 → memRead2 buf 4 = memRead2 buf 6 ∧ memRead2 buf 6 = buf.length) ∧
      (memRead1 buf 3 = 1 → memRead2 buf 6 = buf.length) ∧
      paletteFits (memRead1 buf 3) (buf.length - memRead2 buf 6) ∧ (1 ≤ memRead1 buf 0 ∧ 1 ≤ memRead1 buf 1) ∧
      t = parsed s buf := by
  simp only [opCntParse, bind_eq_ok, Slot.read_eq_ok, require_eq_ok, pure_eq_ok, Except.ok.injEq]
  constructor
  · rintro ⟨buf, h0, -, h1, -, h2, -, h3, -, h4, -, h5, -, h6, -, h7, -, h8, -, h9, rfl⟩
    exact ⟨buf, h0, h1, h2, h3, h4, h5, h6, h7, h8, h9, rfl⟩
  · rintro ⟨buf, h0, h1, h2, h3, h4, h5, h6, h7, h8, h9, rfl⟩
    exact ⟨buf, h0, (), h1, (), h2, (), h3, (), h4, (), h5, (), h6, (), h7, (), h8, (), h9, rfl⟩

end Sys2Proof.Machine
end

