-- ==== Sys2Proof/Laws/Commands.lean ====
section
/-! SUPPORT. Sequences of commands: what each can do, said once; the elements of a buffer as the host reads them. -/

namespace Sys2Proof.Machine

variable {s t : State} {i : Instr} {is : List Instr}

@[simp] theorem runCommands_nil (s : State) : runCommands [] s = .next s := rfl

theorem runCommands_cons_of_next (h : exec i s = .next t) : runCommands (i :: is) s = runCommands is t := by
  simp [runCommands, h]

/-- Running a sequence of commands always ends in a next state. -/
theorem runCommands_completes (is : List Instr) (s : State) : ∃ t, runCommands is s = .next t := by
  induction is generalizing s with
  | nil => exact ⟨s, rfl⟩
  | cons i is ih =>
    obtain ⟨t, ht⟩ := exec_completes i s
    rw [runCommands_cons_of_next ht]
    exact ih t

/-- While a fault is recorded a command other than `SYS.RESET` does nothing (60_exceptions.md R305). -/
theorem exec_of_faulted (hi : i ≠ .sysReset) (h : s.fault ≠ 0) : exec i s = .next s := by
  rw [exec_eq_runOp hi, runOp_faulted h]

/-- So a sequence of such commands does nothing: the first fault of a sequence is its fault. -/
theorem runCommands_of_faulted (his : Instr.sysReset ∉ is) (h : s.fault ≠ 0) : runCommands is s = .next s := by
  induction is with
  | nil => rfl
  | cons i is ih =>
    rw [List.mem_cons, not_or] at his
    rw [runCommands_cons_of_next (exec_of_faulted (Ne.symm his.1) h)]
    exact ih his.2

/-- A host read of an element answers exactly the element of a buffer that holds a value. -/
theorem readElem_eq_ok {α : Type} {x : Slot (List α)} {j : Nat} {f : α → HostValue} {v : HostValue} :
    readElem x j f = .ok v ↔ x.valid = true ∧ ∃ a, x.val[j]? = some a ∧ v = f a := by
  unfold readElem
  cases x.valid
  · simp
  · cases x.val[j]? <;> simp [eq_comm]

@[simp] theorem HostValue.element_pixels (ps : List Pixel) (j : Nat) :
    (HostValue.pixels ps).element j = ps[j]?.map .pixel := rfl

@[simp] theorem HostValue.element_bytes (bs : List Byte) (j : Nat) :
    (HostValue.bytes bs).element j = bs[j]?.map (fun b => .number b.toNat) := rfl

@[simp] theorem HostValue.element_numbers (ns : List Nat) (j : Nat) :
    (HostValue.numbers ns).element j = ns[j]?.map .number := rfl

end Sys2Proof.Machine
end

