-- ==== Sys2Proof/Laws/Memory.lean ====
section
/-! SUPPORT. Every operation on buffers and registers keeps the canonical form, and the reset state has it. -/

namespace Sys2Proof.Machine

/-- A place that holds a value is in canonical form. -/
@[simp] theorem Slot.canonical_put {α : Type} [DecidableEq α] (x d : α) : (Slot.put x).canonical d = true := rfl

/-- The canonical form of the buffers says of each buffer that it holds a value or is empty. -/
theorem Memory.wf_iff (m : Memory) :
    m.wf = true ↔
      m.img.canonical [] = true ∧ m.wimg.canonical [] = true ∧ m.pk.canonical [] = true ∧
      m.pal.canonical [] = true ∧ m.str.canonical [] = true ∧ m.run.canonical [] = true ∧
      m.vals.canonical [] = true ∧ m.sym.canonical [] = true ∧ m.rleb.canonical [] = true ∧
      m.valb.canonical [] = true ∧ m.buf.canonical [] = true ∧ m.pimg.canonical [] = true := by
  simp only [Memory.wf, Bool.and_eq_true, and_assoc]

/-- The canonical form of the registers says of each register that it holds a value or has contents 0. -/
theorem Regs.wf_iff (r : Regs) :
    r.wf = true ↔
      r.v.canonical 0 = true ∧ r.n.canonical 0 = true ∧ r.vn.canonical 0 = true ∧
      r.w.canonical 0 = true ∧ r.h.canonical 0 = true ∧ r.pw.canonical 0 = true ∧
      r.fmt.canonical 0 = true ∧ r.var.canonical 0 = true ∧ r.us.canonical 0 = true ∧
      r.f4.canonical 0 = true ∧ r.f6.canonical 0 = true ∧ r.rb.canonical 0 = true ∧
      r.re.canonical 0 = true ∧ r.si.canonical 0 = true ∧ r.bi.canonical 0 = true := by
  simp only [Regs.wf, Bool.and_eq_true, and_assoc]

theorem State.setImg_mem_wf {s : State} (x : List Pixel) (h : s.mem.wf = true) : (s.setImg x).mem.wf = true := by
  rw [Memory.wf_iff] at h ⊢
  simp_all

theorem State.setWimg_mem_wf {s : State} (x : List Pixel) (h : s.mem.wf = true) : (s.setWimg x).mem.wf = true := by
  rw [Memory.wf_iff] at h ⊢
  simp_all

theorem State.setPk_mem_wf {s : State} (x : List Byte) (h : s.mem.wf = true) : (s.setPk x).mem.wf = true := by
  rw [Memory.wf_iff] at h ⊢
  simp_all

theorem State.setPal_mem_wf {s : State} (x : List Byte) (h : s.mem.wf = true) : (s.setPal x).mem.wf = true := by
  rw [Memory.wf_iff] at h ⊢
  simp_all

theorem State.setStr_mem_wf {s : State} (x : List Byte) (h : s.mem.wf = true) : (s.setStr x).mem.wf = true := by
  rw [Memory.wf_iff] at h ⊢
  simp_all

theorem State.setRun_mem_wf {s : State} (x : List Nat) (h : s.mem.wf = true) : (s.setRun x).mem.wf = true := by
  rw [Memory.wf_iff] at h ⊢
  simp_all

theorem State.setVals_mem_wf {s : State} (x : List Byte) (h : s.mem.wf = true) : (s.setVals x).mem.wf = true := by
  rw [Memory.wf_iff] at h ⊢
  simp_all

theorem State.setSym_mem_wf {s : State} (x : List Nat) (h : s.mem.wf = true) : (s.setSym x).mem.wf = true := by
  rw [Memory.wf_iff] at h ⊢
  simp_all

theorem State.setRleb_mem_wf {s : State} (x : List Byte) (h : s.mem.wf = true) : (s.setRleb x).mem.wf = true := by
  rw [Memory.wf_iff] at h ⊢
  simp_all

theorem State.setValb_mem_wf {s : State} (x : List Byte) (h : s.mem.wf = true) : (s.setValb x).mem.wf = true := by
  rw [Memory.wf_iff] at h ⊢
  simp_all

theorem State.setBuf_mem_wf {s : State} (x : List Byte) (h : s.mem.wf = true) : (s.setBuf x).mem.wf = true := by
  rw [Memory.wf_iff] at h ⊢
  simp_all

theorem State.setPimg_mem_wf {s : State} (x : List Pixel) (h : s.mem.wf = true) : (s.setPimg x).mem.wf = true := by
  rw [Memory.wf_iff] at h ⊢
  simp_all

theorem State.setV_regs_wf {s : State} (x : Nat) (h : s.regs.wf = true) : (s.setV x).regs.wf = true := by
  rw [Regs.wf_iff] at h ⊢
  simp_all

theorem State.setN_regs_wf {s : State} (x : BitVec 7) (h : s.regs.wf = true) : (s.setN x).regs.wf = true := by
  rw [Regs.wf_iff] at h ⊢
  simp_all

theorem State.setVn_regs_wf {s : State} (x : BitVec 4) (h : s.regs.wf = true) : (s.setVn x).regs.wf = true := by
  rw [Regs.wf_iff] at h ⊢
  simp_all

theorem State.setW_regs_wf {s : State} (x : BitVec 8) (h : s.regs.wf = true) : (s.setW x).regs.wf = true := by
  rw [Regs.wf_iff] at h ⊢
  simp_all

theorem State.setH_regs_wf {s : State} (x : BitVec 8) (h : s.regs.wf = true) : (s.setH x).regs.wf = true := by
  rw [Regs.wf_iff] at h ⊢
  simp_all

theorem State.setPw_regs_wf {s : State} (x : BitVec 9) (h : s.regs.wf = true) : (s.setPw x).regs.wf = true := by
  rw [Regs.wf_iff] at h ⊢
  simp_all

theorem State.setFmt_regs_wf {s : State} (x : BitVec 8) (h : s.regs.wf = true) : (s.setFmt x).regs.wf = true := by
  rw [Regs.wf_iff] at h ⊢
  simp_all

theorem State.setVar_regs_wf {s : State} (x : BitVec 1) (h : s.regs.wf = true) : (s.setVar x).regs.wf = true := by
  rw [Regs.wf_iff] at h ⊢
  simp_all

theorem State.setUs_regs_wf {s : State} (x : BitVec 1) (h : s.regs.wf = true) : (s.setUs x).regs.wf = true := by
  rw [Regs.wf_iff] at h ⊢
  simp_all

theorem State.setF4_regs_wf {s : State} (x : BitVec 16) (h : s.regs.wf = true) : (s.setF4 x).regs.wf = true := by
  rw [Regs.wf_iff] at h ⊢
  simp_all

theorem State.setF6_regs_wf {s : State} (x : BitVec 16) (h : s.regs.wf = true) : (s.setF6 x).regs.wf = true := by
  rw [Regs.wf_iff] at h ⊢
  simp_all

theorem State.setRb_regs_wf {s : State} (x : BitVec 17) (h : s.regs.wf = true) : (s.setRb x).regs.wf = true := by
  rw [Regs.wf_iff] at h ⊢
  simp_all

theorem State.setRe_regs_wf {s : State} (x : BitVec 17) (h : s.regs.wf = true) : (s.setRe x).regs.wf = true := by
  rw [Regs.wf_iff] at h ⊢
  simp_all

theorem State.setSi_regs_wf {s : State} (x : BitVec 17) (h : s.regs.wf = true) : (s.setSi x).regs.wf = true := by
  rw [Regs.wf_iff] at h ⊢
  simp_all

theorem State.setBi_regs_wf {s : State} (x : BitVec 3) (h : s.regs.wf = true) : (s.setBi x).regs.wf = true := by
  rw [Regs.wf_iff] at h ⊢
  simp_all

theorem State.setCursor_regs_wf {s : State} (si bi : Nat) (e : Bool) (h : s.regs.wf = true) :
    (s.setCursor si bi e).regs.wf = true := by
  rw [Regs.wf_iff] at h ⊢
  simp_all

theorem Memory.reset_wf : Memory.reset.wf = true := by decide

theorem Regs.reset_wf : Regs.reset.wf = true := by decide

theorem resetBlock_mem_wf (s : State) : (resetBlock s).mem.wf = true := Memory.reset_wf

theorem resetBlock_regs_wf (s : State) : (resetBlock s).regs.wf = true := Regs.reset_wf

/-- The host's writes of whole buffers keep the canonical form. -/
theorem hostLoad_mem_wf {s : State} (x : BufWrite) (h : s.mem.wf = true) : (hostLoad x s).mem.wf = true := by
  cases x
  · exact State.setImg_mem_wf _ h
  · exact State.setWimg_mem_wf _ h
  · exact State.setPk_mem_wf _ h
  · exact State.setPal_mem_wf _ h
  · exact State.setStr_mem_wf _ h
  · exact State.setRun_mem_wf _ h
  · exact State.setVals_mem_wf _ h
  · exact State.setSym_mem_wf _ h
  · exact State.setRleb_mem_wf _ h
  · exact State.setValb_mem_wf _ h
  · exact State.setBuf_mem_wf _ h
  · exact State.setPimg_mem_wf _ h

/-- The host's writes of single elements keep the canonical form. -/
theorem hostPoke_mem_wf {s t : State} {x : ElemWrite} (h : s.mem.wf = true) (hp : hostPoke x s = .next t) :
    t.mem.wf = true := by
  cases x <;> simp only [hostPoke, pokeSlot_eq_next] at hp <;> obtain ⟨-, -, rfl⟩ := hp
  · exact State.setImg_mem_wf _ h
  · exact State.setWimg_mem_wf _ h
  · exact State.setPk_mem_wf _ h
  · exact State.setPal_mem_wf _ h
  · exact State.setStr_mem_wf _ h
  · exact State.setRun_mem_wf _ h
  · exact State.setVals_mem_wf _ h
  · exact State.setSym_mem_wf _ h
  · exact State.setRleb_mem_wf _ h
  · exact State.setValb_mem_wf _ h
  · exact State.setBuf_mem_wf _ h
  · exact State.setPimg_mem_wf _ h

end Sys2Proof.Machine
end

