-- ==== Sys2Proof/Laws/PerInstr.lean ====
section
/-! SUPPORT. The family RoundTrip of LAWS.json: the decoder reads the encoder's byte as the operation it encodes. -/

namespace Sys2Proof.Laws.RoundTrip

/-- The operation's byte decodes to it (30_encoding.md R91). -/
def Statement (i : Instr) : Prop := decode (encode i) = .ok i

theorem sysReset : Statement .sysReset := rfl

theorem vwiEnc : Statement .vwiEnc := rfl

theorem vwiDec : Statement .vwiDec := rfl

theorem chkPack : Statement .chkPack := rfl

theorem chkGet : Statement .chkGet := rfl

theorem seqPack : Statement .seqPack := rfl

theorem seqUnpack : Statement .seqUnpack := rfl

theorem fixPack : Statement .fixPack := rfl

theorem fixUnpack : Statement .fixUnpack := rfl

theorem curSet : Statement .curSet := rfl

theorem pixClean : Statement .pixClean := rfl

theorem pixQuant : Statement .pixQuant := rfl

theorem pixPack8 : Statement .pixPack8 := rfl

theorem clsCount : Statement .clsCount := rfl

theorem clsFmt : Statement .clsFmt := rfl

theorem genMono : Statement .genMono := rfl

theorem genVal : Statement .genVal := rfl

theorem genUnscr : Statement .genUnscr := rfl

theorem rleBin : Statement .rleBin := rfl

theorem rleMv : Statement .rleMv := rfl

theorem rlxBin : Statement .rlxBin := rfl

theorem rlxMv : Statement .rlxMv := rfl

theorem cntSearch : Statement .cntSearch := rfl

theorem cntAsm : Statement .cntAsm := rfl

theorem encodeImage : Statement .encodeImage := rfl

theorem cntParse : Statement .cntParse := rfl

theorem pixRescr : Statement .pixRescr := rfl

theorem palExpand : Statement .palExpand := rfl

theorem pixCrop : Statement .pixCrop := rfl

theorem decodeImage : Statement .decodeImage := rfl

end Sys2Proof.Laws.RoundTrip
end

