-- ==== Sys2Proof/Tests/Slice0.lean ====
section
/-! SUPPORT. Tests. Expected values are those of spec/95_test_vectors.md (the vector is named) or are worked out by hand
from the rule named. A theorem `test_witness_X` shows concrete states that meet the hypotheses of obligation `X`,
clause by clause, at the boundary values of each clause. -/

namespace Sys2Proof.Tests

open Sys2Proof Sys2Proof.Machine

set_option Elab.async false

/-- The outcome is the next state `t`. -/
def nextIs (x : Host.Outcome State Fault Refusal) (t : State) : Bool :=
  match x with
  | .next u => decide (u = t)
  | .fault _ => false
  | .refused _ => false

/-- The outcome is the refusal `r`. -/
def refusedWith (x : Host.Outcome State Fault Refusal) (r : Refusal) : Bool :=
  match x with
  | .next _ => false
  | .fault _ => false
  | .refused q => decide (q = r)

/-- The outcome is `s` with a fault recorded, code and command. -/
def takes (i : Instr) (s : State) (code op : Byte) : Bool := nextIs (exec i s) { s with fault := code, fop := op }

/-- The next state of an operation that answers one. -/
def after (i : Instr) (s : State) : State :=
  match exec i s with
  | .next t => t
  | .fault _ => s
  | .refused _ => s

/-- The next state of a sequence of commands. -/
def ran (is : List Instr) (s : State) : State :=
  match runCommands is s with
  | .next t => t
  | .fault _ => s
  | .refused _ => s

/-- The operation answers a next state without a recorded fault. -/
def completes (i : Instr) (s : State) : Bool := nextIs (exec i s) (after i s) && decide ((after i s).fault = 0)

/-- A state with a given host program. -/
def hosted (ms : List HostMove) : State := { State.reset with host := ms }

def k : Pixel := ⟨0, 0, 0, 255⟩
def wt : Pixel := ⟨255, 255, 255, 255⟩
def rd : Pixel := ⟨255, 0, 0, 255⟩
def gn : Pixel := ⟨0, 255, 0, 255⟩
def tr : Pixel := ⟨0, 0, 0, 0⟩

/-- The container of vector V1. -/
def v1 : List Byte := [0x10, 0x01, 0x01, 0x00, 0x0B, 0x00, 0x0B, 0x00, 0x31, 0x42, 0xC0]

/-- The container of vector V5. -/
def v5 : List Byte := [0x03, 0x02, 0x01, 0x03, 0x0A, 0x00, 0x0C, 0x00, 0x5A, 0xC0, 0x12, 0x40, 0xF0, 0xCC, 0x00]

/-! Well-formedness: each check refuses an ill-formed term. -/

theorem test_default_config_wf : Config.default.wf = true := by decide

theorem test_wf_refuses_narrow_vbits :
    { Config.default with vbits := some 15 }.vbitsOk = false ∧ { Config.default with vbits := some 15 }.wf = false ∧
      { Config.default with vbits := some 16 }.wf = true := by decide

theorem test_wf_refuses_thresholds :
    { Config.default with t1 := 0 }.thresholdsOk = false ∧ { Config.default with t1 := 86 }.wf = false ∧
      { Config.default with t2 := 85 }.wf = false ∧ { Config.default with t2 := 171 }.wf = false ∧
      { Config.default with t3 := 170 }.wf = false ∧
      { Config.default with t1 := 43, t2 := 128, t3 := 213 }.wf = true := by decide

theorem test_wf_refuses_mono_map :
    { Config.default with monoMap := [(0xC0, false)] }.monoMapOk = false ∧
      { Config.default with monoMap := [(0xC0, true), (0xFF, true)] }.wf = false := by decide

theorem test_every_command_wf : ∀ i ∈ Instr.all, i.wf = true := by decide

/-! Decoding: every code of R91, the high nibble the family and the low nibble the operation, written bit by bit. -/

theorem test_decode_system : decodeTableWord 8 0b00000001 = some .sysReset := by decide

theorem test_decode_codec :
    decodeTableWord 8 0b00010000 = some .vwiEnc ∧ decodeTableWord 8 0b00010001 = some .vwiDec ∧
      decodeTableWord 8 0b00010010 = some .chkPack ∧ decodeTableWord 8 0b00010011 = some .chkGet ∧
      decodeTableWord 8 0b00010100 = some .seqPack ∧ decodeTableWord 8 0b00010101 = some .seqUnpack ∧
      decodeTableWord 8 0b00010110 = some .fixPack ∧ decodeTableWord 8 0b00010111 = some .fixUnpack ∧
      decodeTableWord 8 0b00011000 = some .curSet := by decide

theorem test_decode_pixels :
    decodeTableWord 8 0b00100000 = some .pixClean ∧ decodeTableWord 8 0b00100001 = some .pixQuant ∧
      decodeTableWord 8 0b00100010 = some .pixPack8 ∧ decodeTableWord 8 0b00100011 = some .clsCount ∧
      decodeTableWord 8 0b00100100 = some .clsFmt ∧ decodeTableWord 8 0b00100101 = some .genMono ∧
      decodeTableWord 8 0b00100110 = some .genVal ∧ decodeTableWord 8 0b00100111 = some .genUnscr := by decide

theorem test_decode_run_length :
    decodeTableWord 8 0b00110000 = some .rleBin ∧ decodeTableWord 8 0b00110001 = some .rleMv ∧
      decodeTableWord 8 0b00110010 = some .rlxBin ∧ decodeTableWord 8 0b00110011 = some .rlxMv := by decide

theorem test_decode_container :
    decodeTableWord 8 0b01000000 = some .cntSearch ∧ decodeTableWord 8 0b01000001 = some .cntAsm ∧
      decodeTableWord 8 0b01000010 = some .encodeImage := by decide

theorem test_decode_pipeline :
    decodeTableWord 8 0b01010000 = some .cntParse ∧ decodeTableWord 8 0b01010001 = some .pixRescr ∧
      decodeTableWord 8 0b01010010 = some .palExpand ∧ decodeTableWord 8 0b01010011 = some .pixCrop ∧
      decodeTableWord 8 0b01010100 = some .decodeImage := by decide

/-- T60.1: the codes next after the last of each family. -/
theorem test_decode_refuses :
    [0x00, 0x02, 0x19, 0x28, 0x34, 0x43, 0x55, 0xFF].all (fun n => decodeTableWord 8 n = none) = true := by decide

/-- T60.2: from the reset state every operation but SYS.RESET raises OperandInvalid. -/
theorem test_first_command_after_reset :
    nextIs (step (State.reset.withFetchWord 8 0b00010000)) { State.reset with fault := 17, fop := 0x10 } = true ∧
      nextIs (step (State.reset.withFetchWord 8 0b00000001)) State.reset = true := by decide +kernel

/-! System, step, host. -/

/-- P4: the reset after a fault. -/
theorem test_witness_SysResetGivesTheResetState :
    nextIs (exec .sysReset { State.reset with fault := 2, fop := 0x54, eos := true, mem.buf := .put [1] })
      State.reset = true := by decide +kernel

theorem test_witness_StepRunsTheDecodedCommand :
    (hosted [.cmd 0x10, .resetEvent]).host = .cmd 0x10 :: [.resetEvent] ∧ decode 0x10 = .ok .vwiEnc ∧
      Instr.vwiEnc.wf = true ∧ State.reset.host = [] ∧ nextIs (step State.reset) State.reset = true := by
  refine ⟨rfl, rfl, rfl, rfl, by decide +kernel⟩

theorem test_witness_DecodeInvertsEncode : decode 0x54 = .ok .decodeImage ∧ decode 0x01 = .ok .sysReset := ⟨rfl, rfl⟩

/-- T60.1. -/
theorem test_witness_IllegalCommandIsRecorded :
    (∀ i, encode i ≠ 0x19) ∧ (hosted [.cmd 0x19]).fault = 0 ∧ (hosted [.cmd 0x19]).host = [.cmd 0x19] ∧
      nextIs (step (hosted [.cmd 0x19])) { State.reset with fault := 16, fop := 0x19 } = true := by
  refine ⟨fun i => ?_, rfl, rfl, by decide +kernel⟩
  cases i <;> decide

/-- T60.3, P4: 0x99 is ignored while FAULT is 2; a register write is not; a refused write is refused. -/
theorem test_witness_FaultsAreSticky :
    let s := fun (m : HostMove) => { hosted [m] with fault := 2, fop := 0x54 }
    (∀ m, (s m).fault ≠ 0 ∧ (s m).host = [m]) ∧
      (nextIs (step (s (.cmd 0x99))) { State.reset with fault := 2, fop := 0x54 } = true ∧
        nextIs (step (s (.set (.n 3)))) { State.reset with fault := 2, fop := 0x54, regs.n := .put 3 } = true ∧
        refusedWith (step (s (.read .cmd))) .readOfCmd = true ∧
        nextIs (step (s (.cmd 0x01))) State.reset = true ∧ nextIs (step (s .resetEvent)) State.reset = true) := by
  refine ⟨fun _ => ⟨(by decide : (2 : Byte) ≠ 0), rfl⟩, by decide +kernel⟩

/-- T40.2: V = 0, N = 1. -/
theorem test_witness_FaultsArePrecise :
    let s := { State.reset with regs.v := .put 0, regs.n := .put 1 }
    s.fault = 0 ∧ takes .vwiEnc s 19 0x10 = true ∧ (after .vwiEnc s).fault ≠ 0 := by decide +kernel

/-- A clear valid bit in the unconditional part (T60.3) and in the conditional part of the read set. -/
theorem test_witness_UnreadableOperandRaisesOperandInvalid :
    let s := { State.reset with regs.n := .put 3 }
    let t := { State.reset with regs.fmt := .put 2, regs.w := .put 1, regs.h := .put 1, regs.pw := .put 1, mem.pk := .put [0] }
    (s.fault = 0 ∧ Place.reg .v ∈ readSet .vwiEnc s ∧ (s.place (.reg .v)).valid = false ∧
      takes .vwiEnc s 17 0x10 = true) ∧
    (t.fault = 0 ∧ Place.buf .pal ∈ readSet .genVal t ∧ (t.place (.buf .pal)).valid = false ∧
      takes .genVal t 17 0x26 = true) := by decide +kernel

/-- T41.4: format 0 leaves VN unchanged. -/
theorem test_witness_NothingOutsideTheWriteSetIsWritten :
    let s := { State.reset with regs.var := .put 1, mem.pal := .put [0xC0, 0xFF], regs.w := .put 16 }
    Instr.clsFmt ≠ .sysReset ∧
      nextIs (exec .clsFmt s) { s with regs.fmt := .put 0, regs.pw := .put 32 } = true := by decide +kernel

/-- Two states that differ outside the read set of CUR.SET, and two for CLS.FMT with equal TOOMANY. -/
theorem test_witness_ResultDependsOnTheReadSetOnly :
    let s := { State.reset with mem.buf := .put [1, 2, 3], regs.rb := .put 3, regs.re := .put 3 }
    let t := { s with regs.v := .put 7, eos := true, tooMany := true }
    let u := { State.reset with regs.var := .put 1, mem.pal := .put [0xF0], regs.w := .put 18, tooMany := true }
    let v := { u with regs.vn := .put 7, mem.buf := .put [1] }
    (s.fault = 0 ∧ t.fault = 0 ∧ s.cfg = t.cfg ∧ (∀ p ∈ readSet .curSet s, s.place p = t.place p) ∧
      completes .curSet s = true ∧ completes .curSet t = true ∧ s ≠ t) ∧
    (u.fault = 0 ∧ v.fault = 0 ∧ u.cfg = v.cfg ∧ u.tooMany = v.tooMany ∧
      (∀ p ∈ readSet .clsFmt u, u.place p = v.place p) ∧ u ≠ v ∧
      completes .clsFmt u = true ∧ (after .clsFmt u).regs.fmt = .put 1 ∧ (after .clsFmt v).regs.fmt = .put 1 ∧
      (after .clsFmt v).regs.vn = .put 8) := by decide +kernel

theorem test_witness_FaultRecordStaysLegal :
    faultRecordOk (hosted [.cmd 0x54]) = true ∧
      nextIs (step (hosted [.cmd 0x54])) { State.reset with fault := 17, fop := 0x54 } = true ∧
      faultRecordOk { State.reset with fault := 3, fop := 0x54 } = false := by decide +kernel

theorem test_witness_StateStaysWellFormed :
    (hosted [.set (.v 5)]).wf = true ∧ nextIs (step (hosted [.set (.v 5)])) { State.reset with regs.v := .put 5 } = true ∧
      State.wf { State.reset with regs.v := ⟨false, 5⟩ } = false := by decide +kernel

theorem test_witness_HostRegisterWriteSetsOneRegister :
    let s := fun (x : RegWrite) => { hosted [.set x] with cfg.vbits := some 16 }
    (∀ x, (s x).host = [.set x]) ∧
      (fitsVBits (s (.v 65535)).cfg 65535 = true ∧ fitsVBits (s (.v 65536)).cfg 65536 = false ∧
        RegWrite.name (.n 3) ≠ .v ∧ refusedWith (step (s (.v 65536))) .writeWiderThanV = true ∧
        nextIs (step (s (.v 65535))) { State.reset with cfg.vbits := some 16, regs.v := .put 65535 } = true) := by
  refine ⟨fun x => rfl, by decide +kernel⟩

theorem test_witness_HostBufferWrites :
    let s := fun (m : HostMove) => { hosted [m] with mem.buf := .put [1, 2, 3] }
    (∀ m, (s m).host = [m]) ∧
      (nextIs (step (s (.load (.buf [9])))) { State.reset with mem.buf := .put [9] } = true ∧
        ((s (.poke (.pal 0 7))).place (.buf .pal)).valid = false ∧
        refusedWith (step (s (.poke (.pal 0 7)))) .writeToInvalidBuffer = true ∧
        ((s (.poke (.buf 3 7))).place (.buf .buf)).valid = true ∧
        ((s (.poke (.buf 3 7))).place (.buf .buf)).val.length = 3 ∧
        refusedWith (step (s (.poke (.buf 3 7)))) .writeBeyondLength = true ∧
        nextIs (step (s (.poke (.buf 2 7)))) { State.reset with mem.buf := .put [1, 2, 7] } = true) := by
  refine ⟨fun m => rfl, by decide +kernel⟩

theorem test_witness_HostReadsChangeNothing :
    let r := { State.reset with mem.buf := .put [1, 2], regs.n := .put 3, eos := true, fault := 17, fop := 0x54 }
    let s := fun (x : HostRead) => { r with host := [.read x] }
    (∀ x, (s x).host = [.read x]) ∧
      (refusedWith (step (s .cmd)) .readOfCmd = true ∧
        ((s (.reg .v)).place (.reg .v)).valid = false ∧ refusedWith (step (s (.reg .v))) .readOfInvalidRegister = true ∧
        ((s (.reg .n)).place (.reg .n)) = .put (.number 3) ∧ nextIs (step (s (.reg .n))) r = true ∧
        ((s (.buf .pal)).place (.buf .pal)).valid = false ∧ refusedWith (step (s (.buf .pal))) .readOfInvalidBuffer = true ∧
        ((s (.buf .buf)).place (.buf .buf)) = .put (.bytes [1, 2]) ∧ nextIs (step (s (.buf .buf))) r = true ∧
        ((s (.elem .pal 0)).place (.buf .pal)).valid = false ∧
        refusedWith (step (s (.elem .pal 0))) .readOfInvalidBuffer = true ∧
        ((s (.elem .buf 2)).place (.buf .buf)).val.length = 2 ∧
        refusedWith (step (s (.elem .buf 2))) .readBeyondLength = true ∧ nextIs (step (s (.elem .buf 1))) r = true ∧
        nextIs (step (s .fault)) r = true) := by
  refine ⟨fun x => rfl, by decide +kernel⟩

/-- What the reads answer: R360, R25. -/
theorem test_host_read_answers :
    let s := { State.reset with mem.buf := .put [1, 2], eos := true, fault := 17, fop := 0x54 }
    hostRead (.elem .buf 1) s = .ok (.number 2) ∧ hostRead (.buf .buf) s = .ok (.bytes [1, 2]) ∧
      hostRead .eos s = .ok (.number 1) ∧ hostRead .tooMany s = .ok (.number 0) ∧
      hostRead .fault s = .ok (.number 17) ∧ hostRead .fop s = .ok (.number 0x54) := ⟨rfl, rfl, rfl, rfl, rfl, rfl⟩

/-! The integer codec and the chunker. -/

/-- T40.1 at the smallest and the largest one-symbol value, and at 2^N. -/
theorem test_witness_ChopIsTheShortestCode :
    (1 ≤ 1 ∧ isChunkWidth 1 ∧ chop 1 1 = [1]) ∧ (isChunkWidth 8 ∧ chop 255 8 = [255]) ∧
      chop 256 8 = [0, 1, 0] ∧ chop 22 2 = [0, 0, 1, 1, 2] ∧ chop 65281 4 = [0, 0, 0, 15, 15, 0, 1] := by decide +kernel

/-- T40.2: the last group fills a byte, or not. -/
theorem test_witness_PackGroupsPlacesEveryGroup :
    isChunkWidth 1 ∧ (∀ g ∈ List.replicate 9 1, g < 2 ^ 1) ∧ packGroups (List.replicate 8 1) 1 = [0xFF] ∧
      packGroups (List.replicate 9 1) 1 = [0xFF, 0x80] ∧ packGroups [0, 0, 1, 1, 2] 2 = [0x05, 0x80] ∧
      packGroups [] 4 = [] := by decide +kernel

/-- T40.5: zeros up to the end; a code that ends at the end; a code one group short. -/
theorem test_witness_NextValueReadsOneCode :
    (isChunkWidth 4 ∧ (2 : Nat) ≤ [0x00, 0x00].length ∧ (∀ j < 4, group [0x00, 0x00] (0 + j * 4) 4 = 0) ∧
      0 + 4 * 4 = 8 * 2 ∧ nextValue [0x00, 0x00] 2 0 4 = .endOfStream 16) ∧
    ((∀ j < 1, group [0x20, 0x10, 0x00] (4 + j * 4) 4 = 0) ∧ group [0x20, 0x10, 0x00] 8 4 = 1 ∧
      4 + (2 * 1 + 1) * 4 = 8 * 2 ∧ nextValue [0x20, 0x10, 0x00] 2 4 4 = .value 16 16) ∧
    ((∀ j < 1, group [0x01] (0 + j * 4) 4 = 0) ∧ group [0x01] 4 4 = 1 ∧ 8 * 1 < 0 + (2 * 1 + 1) * 4 ∧
      nextValue [0x01] 1 0 4 = .truncated) := by decide +kernel

/-- S3: the sequence [6, 5, 22] at width 1, and the empty one. -/
theorem test_witness_UnpackingAPackedSequenceGivesItBack :
    isChunkWidth 1 ∧ (∀ v ∈ [6, 5, 22], 1 ≤ v) ∧ packSeq [6, 5, 22] 1 = [0x31, 0x42, 0xC0] ∧
      unpackSeq [0x31, 0x42, 0xC0] 0 3 1 = some [6, 5, 22] ∧ packSeq [] 1 = [] ∧ unpackSeq [] 0 0 1 = some [] := by
  decide +kernel

/-- T40.1, T40.2. -/
theorem test_witness_VwiEncResult :
    let s := fun (v : Nat) (n : BitVec 7) => { State.reset with regs.v := .put v, regs.n := .put n }
    (∀ v n, (s v n).fault = 0 ∧ (s v n).regs.v = .put v ∧ (s v n).regs.n = .put n) ∧
      (takes .vwiEnc { State.reset with regs.v := .put 5 } 17 0x10 = true ∧
        takes .vwiEnc (s 0 3) 18 0x10 = true ∧ takes .vwiEnc (s 5 0) 18 0x10 = true ∧
        takes .vwiEnc (s 0 1) 19 0x10 = true ∧
        nextIs (exec .vwiEnc (s 1 1)) { s 1 1 with mem.sym := .put [1] } = true ∧
        nextIs (exec .vwiEnc (s 256 8)) { s 256 8 with mem.sym := .put [0, 1, 0] } = true) := by
  refine ⟨fun _ _ => ⟨rfl, rfl, rfl⟩, by decide +kernel⟩

/-- T40.4, T40.5, T40.7. -/
theorem test_witness_VwiDecResult :
    let s := fun (b : List Byte) (re si : BitVec 17) (bi : BitVec 3) (n : BitVec 7) =>
      { State.reset with
        cfg.vbits := some 16, mem.buf := .put b, regs.re := .put re, regs.si := .put si,
        regs.bi := .put bi, regs.n := .put n }
    (∀ b re si bi n, (s b re si bi n).fault = 0 ∧ (s b re si bi n).mem.buf = .put b ∧
      (s b re si bi n).regs.re = .put re ∧ (s b re si bi n).regs.si = .put si ∧
      (s b re si bi n).regs.bi = .put bi ∧ (s b re si bi n).regs.n = .put n) ∧
      (takes .vwiDec (s [1, 2] 2 0 0 3) 18 0x11 = true ∧
        ¬cursorOk [1, 2] 2 2 4 4 ∧ takes .vwiDec (s [1, 2] 2 2 4 4) 27 0x11 = true ∧
        takes .vwiDec (s [1, 2] 3 0 0 4) 27 0x11 = true ∧ takes .vwiDec (s [1, 2] 2 0 1 2) 27 0x11 = true ∧
        cursorOk [0x31, 0x42, 0xC0] 3 1 2 1 ∧ nextValue [0x31, 0x42, 0xC0] 3 10 1 = .value 22 19 ∧
        nextIs (exec .vwiDec (s [0x31, 0x42, 0xC0] 3 1 2 1)) { s [0x31, 0x42, 0xC0] 3 2 3 1 with regs.v := .put 22 } = true ∧
        takes .vwiDec (s [0, 0, 1, 0, 0] 5 0 0 8) 20 0x11 = true ∧
        fitsVBits (s [0, 255, 255] 3 0 0 8).cfg 65535 = true ∧ completes .vwiDec (s [0, 255, 255] 3 0 0 8) = true ∧
        nextIs (exec .vwiDec (s [1, 2, 3] 3 3 0 1)) { s [1, 2, 3] 3 3 0 1 with regs.v := .put 0, eos := true } = true ∧
        nextValue [0x31, 0x42, 0xC1] 3 19 1 = .truncated ∧
        takes .vwiDec (s [0x31, 0x42, 0xC1] 3 2 3 1) 2 0x11 = true) := by
  refine ⟨fun _ _ _ _ _ => ⟨rfl, rfl, rfl, rfl, rfl, rfl⟩, by decide +kernel⟩

/-- T40.2. -/
theorem test_witness_ChkPackResult :
    let s := fun (g : List Nat) (n : BitVec 7) => { State.reset with mem.sym := .put g, regs.n := .put n }
    (∀ g n, (s g n).fault = 0 ∧ (s g n).mem.sym = .put g ∧ (s g n).regs.n = .put n) ∧
      (takes .chkPack (s [4] 5) 18 0x12 = true ∧ takes .chkPack (s [4] 2) 21 0x12 = true ∧
        nextIs (exec .chkPack (s [3] 2)) { s [3] 2 with mem.rleb := .put [0xC0] } = true ∧
        nextIs (exec .chkPack (s [] 4)) { s [] 4 with mem.rleb := .put [] } = true) := by
  refine ⟨fun _ _ => ⟨rfl, rfl, rfl⟩, by decide +kernel⟩

/-- T40.6, T40.7. -/
theorem test_witness_ChkGetResult :
    let s := fun (si : BitVec 17) (bi : BitVec 3) (n : BitVec 7) =>
      { State.reset with
        mem.buf := .put [0x05, 0x80], regs.re := .put 2, regs.si := .put si, regs.bi := .put bi,
        regs.n := .put n }
    (∀ si bi n, (s si bi n).fault = 0 ∧ (s si bi n).regs.si = .put si ∧ (s si bi n).regs.bi = .put bi ∧
      (s si bi n).regs.n = .put n) ∧
      (takes .chkGet (s 0 0 0) 18 0x13 = true ∧ takes .chkGet (s 0 1 2) 27 0x13 = true ∧
        cursorOk [0x05, 0x80] 2 1 0 2 ∧
        nextIs (exec .chkGet (s 1 0 2)) { s 1 2 2 with regs.v := .put 2, eos := false } = true ∧
        nextIs (exec .chkGet (s 1 6 2)) { s 2 0 2 with regs.v := .put 0, eos := false } = true ∧
        nextIs (exec .chkGet (s 2 0 2)) { s 2 0 2 with regs.v := .put 0, eos := true } = true) := by
  refine ⟨fun _ _ _ => ⟨rfl, rfl, rfl, rfl⟩, by decide +kernel⟩

/-- T40.3. -/
theorem test_witness_SeqPackResult :
    let s := fun (r : List Nat) (n : BitVec 7) => { State.reset with mem.run := .put r, regs.n := .put n }
    (∀ r n, (s r n).fault = 0 ∧ (s r n).mem.run = .put r ∧ (s r n).regs.n = .put n) ∧
      (takes .seqPack (s [0] 6) 18 0x14 = true ∧ takes .seqPack (s [3, 0] 4) 19 0x14 = true ∧
        nextIs (exec .seqPack (s [1, 1, 31] 2)) { s [1, 1, 31] 2 with mem.rleb := .put [0x50, 0x7C] } = true) := by
  refine ⟨fun _ _ => ⟨rfl, rfl, rfl⟩, by decide +kernel⟩

/-- T40.5. -/
theorem test_witness_SeqUnpackResult :
    let s := fun (b : List Byte) (rb re : BitVec 17) (n : BitVec 7) =>
      { State.reset with cfg.vbits := some 16, mem.buf := .put b, regs.rb := .put rb, regs.re := .put re, regs.n := .put n }
    (∀ b rb re n, (s b rb re n).fault = 0 ∧ (s b rb re n).mem.buf = .put b ∧ (s b rb re n).regs.rb = .put rb ∧
      (s b rb re n).regs.re = .put re ∧ (s b rb re n).regs.n = .put n) ∧
      (takes .seqUnpack (s [1] 0 1 3) 18 0x15 = true ∧ takes .seqUnpack (s [1] 1 0 4) 27 0x15 = true ∧
        takes .seqUnpack (s [1] 0 2 4) 27 0x15 = true ∧ takes .seqUnpack (s [1] 0 1 4) 2 0x15 = true ∧
        takes .seqUnpack (s [0, 0, 1, 0, 0] 0 5 8) 20 0x15 = true ∧
        windowOk [7, 0, 255, 255] 1 4 ∧ unpackSeq [7, 0, 255, 255] 1 4 8 = some [65535] ∧
        nextIs (exec .seqUnpack (s [7, 0, 255, 255] 1 4 8)) { s [7, 0, 255, 255] 1 4 8 with
          mem.run := .put [65535], regs.si := .put 4, regs.bi := .put 0, eos := true } = true) := by
  refine ⟨fun _ _ _ _ => ⟨rfl, rfl, rfl, rfl, rfl⟩, by decide +kernel⟩

/-- P1, and the empty window of T40.5. -/
theorem test_witness_SeqUnpackIsRepeatedVwiDec :
    let s := fun (re : BitVec 17) => { State.reset with
      mem.buf := .put [0x31, 0x42, 0xC0], regs.rb := .put 0, regs.re := .put re, regs.n := .put 1 }
    (∀ re, (s re).fault = 0) ∧
      (completes .seqUnpack (s 3) = true ∧ (after .seqUnpack (s 3)).mem.run = .put [6, 5, 22] ∧
        completes .curSet (s 3) = true ∧ (readUntilEos 4 (after .curSet (s 3))).map Prod.fst = some [6, 5, 22] ∧
        completes .curSet (s 0) = true ∧ (readUntilEos 1 (after .curSet (s 0))).map Prod.fst = some [] ∧
        (after .seqUnpack (s 0)).mem.run = .put [] ∧
        readUntilEos 4 (after .curSet (s 2)) = none ∧ takes .seqUnpack (s 2) 2 0x15 = true) := by
  refine ⟨fun _ => rfl, by decide +kernel⟩

/-- T40.8. -/
theorem test_witness_FixPackResult :
    let s := fun (xs : List Byte) (n : BitVec 4) => { State.reset with mem.vals := .put xs, regs.vn := .put n }
    (∀ xs n, (s xs n).fault = 0 ∧ (s xs n).mem.vals = .put xs ∧ (s xs n).regs.vn = .put n) ∧
      (takes .fixPack (s [0] 3) 18 0x16 = true ∧ takes .fixPack (s [2] 1) 21 0x16 = true ∧
        nextIs (exec .fixPack (s [0, 1, 0, 2, 1, 0] 2)) { s [0, 1, 0, 2, 1, 0] 2 with mem.valb := .put [0x12, 0x40] } = true ∧
        nextIs (exec .fixPack (s [192, 208] 8)) { s [192, 208] 8 with mem.valb := .put [0xC0, 0xD0] } = true) := by
  refine ⟨fun _ _ => ⟨rfl, rfl, rfl⟩, by decide +kernel⟩

/-- T40.8. -/
theorem test_witness_FixUnpackResult :
    let s := fun (b : List Byte) (re : BitVec 17) (n : BitVec 4) =>
      { State.reset with
        mem.buf := .put b, regs.rb := .put 0, regs.re := .put re, regs.vn := .put n,
        mem.run := .put [2, 1, 1, 2, 1, 1] }
    (∀ b re n, (s b re n).fault = 0 ∧ (s b re n).mem.buf = .put b ∧ (s b re n).regs.re = .put re ∧
      (s b re n).regs.vn = .put n) ∧
      (takes .fixUnpack (s [0x12, 0x40] 2 0) 18 0x17 = true ∧ takes .fixUnpack (s [0x12, 0x40] 3 2) 27 0x17 = true ∧
        takes .fixUnpack (s [0x12, 0x40, 0] 3 2) 2 0x17 = true ∧ takes .fixUnpack (s [0x12] 1 2) 2 0x17 = true ∧
        nextIs (exec .fixUnpack (s [0x12, 0x4F] 2 2)) { s [0x12, 0x4F] 2 2 with
          mem.vals := .put [0, 1, 0, 2, 1, 0] } = true) := by
  refine ⟨fun _ _ _ => ⟨rfl, rfl, rfl, rfl⟩, by decide +kernel⟩

/-- T40.7. -/
theorem test_witness_CurSetResult :
    let s := fun (rb re : BitVec 17) => { State.reset with mem.buf := .put [1, 2, 3], regs.rb := .put rb, regs.re := .put re }
    (∀ rb re, (s rb re).fault = 0 ∧ (s rb re).regs.rb = .put rb ∧ (s rb re).regs.re = .put re) ∧
      (takes .curSet (s 2 1) 27 0x18 = true ∧ takes .curSet (s 0 4) 27 0x18 = true ∧
        nextIs (exec .curSet (s 3 3)) { s 3 3 with regs.si := .put 3, regs.bi := .put 0 } = true) := by
  refine ⟨fun _ _ => ⟨rfl, rfl, rfl⟩, by decide +kernel⟩

/-! The classifier, the quantizer and the generators. -/

/-- T41.1, rows 9 and 10: alpha 0 and alpha 1. -/
theorem test_witness_PixCleanResult :
    let s := { State.reset with mem.img := .put [⟨10, 20, 30, 0⟩, ⟨200, 10, 30, 1⟩] }
    s.fault = 0 ∧ nextIs (exec .pixClean s) { s with mem.wimg := .put [tr, ⟨200, 10, 30, 1⟩] } = true := by decide +kernel

/-- T41.1: the threshold edges, and other thresholds. -/
theorem test_witness_PixQuantResult :
    let s := { State.reset with mem.wimg := .put [⟨63, 64, 127, 128⟩, ⟨191, 192, 85, 170⟩] }
    let t := { State.reset with mem.wimg := .put [⟨200, 10, 130, 255⟩], cfg.t1 := 43, cfg.t3 := 213 }
    s.fault = 0 ∧ s.cfg.wf = true ∧ t.cfg.wf = true ∧
      nextIs (exec .pixQuant s) { s with mem.wimg := .put [⟨0, 85, 85, 170⟩, ⟨170, 255, 85, 170⟩] } = true ∧
      nextIs (exec .pixQuant t) { t with mem.wimg := .put [⟨170, 0, 170, 255⟩] } = true := by decide +kernel

/-- T41.1. -/
theorem test_witness_PixPack8Result :
    let s := { State.reset with mem.wimg := .put [k, wt, ⟨255, 255, 0, 170⟩, ⟨0, 85, 85, 170⟩] }
    s.fault = 0 ∧ nextIs (exec .pixPack8 s) { s with mem.pk := .put [0xC0, 0xFF, 0xBC, 0x85] } = true := by decide +kernel

/-- T41.2: sixteen distinct bytes, then a seventeenth. -/
theorem test_witness_ClsCountResult :
    let xs : List Byte := [0xC0, 0xD0, 0xE0, 0xF0, 0xC4, 0xD4, 0xE4, 0xF4, 0xC8, 0xD8, 0xE8, 0xF8, 0xCC, 0xDC, 0xEC, 0xFC]
    let s := fun (ys : List Byte) => { State.reset with mem.pk := .put ys }
    (∀ ys, (s ys).fault = 0 ∧ (s ys).mem.pk = .put ys) ∧
      (nextIs (exec .clsCount (s (xs ++ [0xC0]))) { s (xs ++ [0xC0]) with mem.pal := .put xs } = true ∧
        nextIs (exec .clsCount (s (xs ++ [0xC3, 0xC3]))) { s (xs ++ [0xC3, 0xC3]) with mem.pal := .put xs, tooMany := true } = true) := by
  refine ⟨fun _ => ⟨rfl, rfl⟩, by decide +kernel⟩

/-- T41.3. -/
theorem test_padded_width :
    [0, 1, 2, 3, 4].map (fun f => paddedWidth f 33) = [64, 33, 40, 36, 34] ∧
      [0, 1, 2, 3, 4].map (fun f => paddedWidth f 255) = [256, 255, 256, 256, 256] := by decide

/-- T41.4. -/
theorem test_witness_ClsFmtResult :
    let s := fun (var : BitVec 1) (pal : List Byte) (many : Bool) (w : BitVec 8) =>
      { State.reset with regs.var := .put var, mem.pal := .put pal, tooMany := many, regs.w := .put w }
    (∀ var pal many w, (s var pal many w).fault = 0 ∧ (s var pal many w).regs.var = .put var ∧
      (s var pal many w).mem.pal = .put pal ∧ (s var pal many w).tooMany = many ∧ (s var pal many w).regs.w = .put w) ∧
      (takes .clsFmt (s 1 [0xC0] false 0) 22 0x24 = true ∧ takes .clsFmt (s 1 [] false 4) 22 0x24 = true ∧
        ((after .clsFmt (s 1 [] true 18)).regs.fmt = .put 1 ∧ (after .clsFmt (s 1 [] true 18)).regs.vn = .put 8) ∧
        ((after .clsFmt (s 1 [0xC0] false 4)).regs.fmt = .put 0 ∧ (after .clsFmt (s 1 [0xC0] false 4)).regs.pw = .put 32) ∧
        (after .clsFmt (s 1 [0, 0xC0] false 4)).regs.fmt = .put 2 ∧
        (after .clsFmt (s 1 [1, 2, 3, 4] false 5)).regs.fmt = .put 3 ∧
        (after .clsFmt (s 1 [1, 2, 3, 4, 5] false 5)).regs.fmt = .put 4 ∧
        (after .clsFmt (s 0 [0xC0, 0xFF] false 16)).regs.fmt = .put 0 ∧
        takes .clsFmt (s 0 [0xF0] false 4) 23 0x24 = true ∧ takes .clsFmt (s 0 [0xC0] true 18) 23 0x24 = true) := by
  refine ⟨fun _ _ _ _ => ⟨rfl, rfl, rfl, rfl, rfl⟩, by decide +kernel⟩

/-- T41.6. -/
theorem test_witness_GenMonoResult :
    let s := fun (pk : List Byte) (w h : BitVec 8) (pw : BitVec 9) (fmt : BitVec 8) =>
      { State.reset with mem.pk := .put pk, regs.w := .put w, regs.h := .put h, regs.pw := .put pw, regs.fmt := .put fmt }
    (∀ pk w h pw fmt, (s pk w h pw fmt).fault = 0 ∧ (s pk w h pw fmt).mem.pk = .put pk ∧
      (s pk w h pw fmt).regs.w = .put w ∧ (s pk w h pw fmt).regs.h = .put h ∧
      (s pk w h pw fmt).regs.pw = .put pw ∧ (s pk w h pw fmt).regs.fmt = .put fmt) ∧
      (takes .genMono (s [0xC0] 1 0 32 0) 22 0x25 = true ∧ takes .genMono (s [0xC0] 1 1 32 2) 26 0x25 = true ∧
        takes .genMono (s [0xC0, 0xC0] 2 1 1 0) 26 0x25 = true ∧ takes .genMono (s [0xF0] 1 1 32 0) 23 0x25 = true ∧
        nextIs (exec .genMono (s [0xFF, 0xC0, 0xC0, 0xFF] 2 2 3 0)) { s [0xFF, 0xC0, 0xC0, 0xFF] 2 2 3 0 with
          mem.str := .put [255, 0, 0, 0, 255, 0] } = true) := by
  refine ⟨fun _ _ _ _ _ => ⟨rfl, rfl, rfl, rfl, rfl, rfl⟩, by decide +kernel⟩

/-- T41.6. -/
theorem test_witness_GenValResult :
    let s := fun (pk : List Byte) (w h : BitVec 8) (pw : BitVec 9) (fmt : BitVec 8) =>
      { State.reset with
        mem.pk := .put pk, regs.w := .put w, regs.h := .put h, regs.pw := .put pw, regs.fmt := .put fmt,
        mem.pal := .put [0xF0, 0xCC, 0x00] }
    let pk : List Byte := [0xF0, 0xF0, 0xCC, 0x00, 0x00, 0xCC]
    (∀ pk w h pw fmt, (s pk w h pw fmt).fault = 0 ∧ (s pk w h pw fmt).mem.pk = .put pk ∧
      (s pk w h pw fmt).regs.w = .put w ∧ (s pk w h pw fmt).regs.h = .put h ∧
      (s pk w h pw fmt).regs.pw = .put pw ∧ (s pk w h pw fmt).regs.fmt = .put fmt) ∧
      (takes .genVal (s pk 3 2 0 3) 22 0x26 = true ∧ takes .genVal (s pk 3 2 4 0) 26 0x26 = true ∧
        takes .genVal (s pk 3 2 4 5) 26 0x26 = true ∧ takes .genVal (s [0xC3] 1 1 4 3) 26 0x26 = true ∧
        nextIs (exec .genVal (s pk 3 2 4 3)) { s pk 3 2 4 3 with mem.str := .put [0, 0, 1, 0, 2, 2, 1, 0] } = true ∧
        nextIs (exec .genVal (s [0xC0, 0xD0] 2 1 2 1)) { s [0xC0, 0xD0] 2 1 2 1 with mem.str := .put [192, 208] } = true) := by
  refine ⟨fun _ _ _ _ _ => ⟨rfl, rfl, rfl, rfl, rfl, rfl⟩, by decide +kernel⟩

/-- T41.6. -/
theorem test_witness_GenUnscrResult :
    let s := fun (str : List Byte) (pw : BitVec 9) (h : BitVec 8) =>
      { State.reset with mem.str := .put str, regs.pw := .put pw, regs.h := .put h }
    (∀ str pw h, (s str pw h).fault = 0 ∧ (s str pw h).mem.str = .put str ∧ (s str pw h).regs.pw = .put pw ∧
      (s str pw h).regs.h = .put h) ∧
      (takes .genUnscr (s [] 0 2) 22 0x27 = true ∧ takes .genUnscr (s (List.replicate 7 0) 4 2) 26 0x27 = true ∧
        nextIs (exec .genUnscr (s (List.replicate 8 0) 4 2)) (s [0, 255, 0, 255, 255, 0, 255, 0] 4 2) = true) := by
  refine ⟨fun _ _ _ => ⟨rfl, rfl, rfl, rfl⟩, by decide +kernel⟩

/-! Run lengths. -/

/-- T42.1. -/
theorem test_witness_RleBinResult :
    let s := fun (str : List Byte) => { State.reset with mem.str := .put str }
    (∀ str, (s str).fault = 0 ∧ (s str).mem.str = .put str) ∧
      (takes .rleBin (s [0, 1]) 26 0x30 = true ∧ nextIs (exec .rleBin (s [])) { s [] with mem.run := .put [1] } = true ∧
        nextIs (exec .rleBin (s [255, 0])) { s [255, 0] with mem.run := .put [1, 1, 1] } = true ∧
        nextIs (exec .rleBin (s [0, 255])) { s [0, 255] with mem.run := .put [2, 1] } = true) := by
  refine ⟨fun _ => ⟨rfl, rfl⟩, by decide +kernel⟩

/-- T42.2. -/
theorem test_witness_RleMvResult :
    let s := fun (str : List Byte) => { State.reset with mem.str := .put str }
    (∀ str, (s str).fault = 0 ∧ (s str).mem.str = .put str) ∧
      (nextIs (exec .rleMv (s [])) { s [] with mem.run := .put [], mem.vals := .put [] } = true ∧
        nextIs (exec .rleMv (s [0, 0, 1, 0, 2, 2, 1, 0])) { s [0, 0, 1, 0, 2, 2, 1, 0] with
          mem.run := .put [2, 1, 1, 2, 1, 1], mem.vals := .put [0, 1, 0, 2, 1, 0] } = true) := by
  refine ⟨fun _ => ⟨rfl, rfl⟩, by decide +kernel⟩

/-- T42.3. -/
theorem test_witness_RlxBinResult :
    let s := fun (run : List Nat) (pw : BitVec 9) => { State.reset with mem.run := .put run, regs.pw := .put pw, regs.h := .put 1 }
    (∀ run pw, (s run pw).fault = 0 ∧ (s run pw).mem.run = .put run ∧ (s run pw).regs.pw = .put pw ∧
      (s run pw).regs.h = .put 1) ∧
      (takes .rlxBin (s [33] 0) 22 0x32 = true ∧ takes .rlxBin (s [6, 0, 27] 32) 19 0x32 = true ∧
        takes .rlxBin (s [6, 5, 20] 32) 2 0x32 = true ∧ takes .rlxBin (s [] 32) 2 0x32 = true ∧
        nextIs (exec .rlxBin (s [1, 1, 31] 32)) { s [1, 1, 31] 32 with mem.str := .put (1 :: List.replicate 31 0) } = true) := by
  refine ⟨fun _ _ => ⟨rfl, rfl, rfl, rfl⟩, by decide +kernel⟩

/-- T42.3. -/
theorem test_witness_RlxMvResult :
    let s := fun (run : List Nat) (vals : List Byte) (pw : BitVec 9) =>
      { State.reset with mem.run := .put run, mem.vals := .put vals, regs.pw := .put pw, regs.h := .put 2 }
    (∀ run vals pw, (s run vals pw).fault = 0 ∧ (s run vals pw).mem.run = .put run ∧
      (s run vals pw).mem.vals = .put vals ∧ (s run vals pw).regs.pw = .put pw ∧ (s run vals pw).regs.h = .put 2) ∧
      (takes .rlxMv (s [2] [0] 0) 22 0x33 = true ∧ takes .rlxMv (s [2, 0] [0, 1] 1) 19 0x33 = true ∧
        takes .rlxMv (s [2, 1] [0] 3) 2 0x33 = true ∧ takes .rlxMv (s [2, 1] [0, 1] 2) 2 0x33 = true ∧
        nextIs (exec .rlxMv (s [1, 1, 1, 1, 2, 1, 1] [0, 0, 1, 0, 2, 1, 0] 4))
          { s [1, 1, 1, 1, 2, 1, 1] [0, 0, 1, 0, 2, 1, 0] 4 with mem.str := .put [0, 0, 1, 0, 2, 2, 1, 0] } = true) := by
  refine ⟨fun _ _ _ => ⟨rfl, rfl, rfl, rfl, rfl⟩, by decide +kernel⟩

/-- T42.1, T42.2, with the stream of one row. -/
theorem test_witness_RunLengthCodingInverts :
    (∀ x ∈ ([255, 0] : List Byte), x = 0 ∨ x = 255) ∧ ([1, 1, 1] : List Nat) ≠ [] ∧ (∀ r ∈ [1, 1, 1], 1 ≤ r) ∧
      runsBinary ((alternating 0 255 [1, 1, 1]).drop 1) = [1, 1, 1] ∧
      ([2, 1] : List Nat).length = ([7, 9] : List Byte).length ∧ ([7, 9] : List Byte)[0]? ≠ ([7, 9] : List Byte)[1]? ∧
      runsMulti (runStream [2, 1] [7, 9]) = ([7, 9], [2, 1]) := by decide

/-! The search, the assembler and ENCODE. -/

/-- T43.1, T43.4: ties, the fifth candidate winning and losing. -/
theorem test_witness_CntSearchResult :
    let s := fun (fmt : BitVec 8) (run : List Nat) => { State.reset with regs.fmt := .put fmt, mem.run := .put run }
    let u := fun (run : List Nat) (str : List Byte) (pw : BitVec 9) (h : BitVec 8) =>
      { s 0 run with cfg.unscreen := .symmetric, mem.str := .put str, regs.pw := .put pw, regs.h := .put h }
    let u1 := u (2 :: List.replicate 31 1) (List.replicate 16 [0, 255]).flatten 32 1
    let u0 := u [6, 5, 22] (List.replicate 5 0 ++ List.replicate 5 255 ++ List.replicate 22 0) 32 1
    (∀ fmt run, (s fmt run).fault = 0 ∧ (s fmt run).regs.fmt = .put fmt ∧ (s fmt run).mem.run = .put run) ∧
      (¬screened (s 0 [1]).cfg 0 ∧ screened u1.cfg 0 ∧ takes .cntSearch { s 0 [1] with cfg.unscreen := .asObserved } 17 0x40 = true ∧
        takes .cntSearch (s 5 [0]) 26 0x40 = true ∧ takes .cntSearch (s 4 [3, 0]) 19 0x40 = true ∧
        takes .cntSearch (u [1] [] 0 1) 22 0x40 = true ∧ takes .cntSearch (u [1] [0] 2 1) 26 0x40 = true ∧
        takes .cntSearch (u [1] [1] 1 1) 26 0x40 = true ∧
        nextIs (exec .cntSearch (s 0 [6, 5, 22])) { s 0 [6, 5, 22] with
          regs.n := .put 1, regs.us := .put 0, mem.rleb := .put [0x31, 0x42, 0xC0] } = true ∧
        nextIs (exec .cntSearch (s 2 [32])) { s 2 [32] with
          regs.n := .put 8, regs.us := .put 0, mem.rleb := .put [0x20] } = true ∧
        nextIs (exec .cntSearch u1) { u1 with regs.n := .put 1, regs.us := .put 1, mem.rleb := .put [0x04, 0x20] } = true ∧
        nextIs (exec .cntSearch u0) { u0 with
          regs.n := .put 1, regs.us := .put 0, mem.rleb := .put [0x31, 0x42, 0xC0] } = true) := by
  refine ⟨fun _ _ => ⟨rfl, rfl, rfl⟩, by decide +kernel⟩

/-- T43.2; the length limit at CONTAINER_MAX = 11 and 10. -/
theorem test_witness_CntAsmResult :
    let s := fun (w : BitVec 8) (n : BitVec 7) (us : BitVec 1) (fmt : BitVec 8) =>
      { State.reset with
        regs.w := .put w, regs.h := .put 1, regs.n := .put n, regs.us := .put us, regs.fmt := .put fmt,
        mem.rleb := .put [0x31, 0x42, 0xC0] }
    let a := { s 3 1 0 3 with
      regs.h := .put 2, mem.rleb := .put [0x5A, 0xC0], mem.valb := .put [0x12, 0x40],
      mem.pal := .put [0xF0, 0xCC, 0x00] }
    (∀ w n us fmt, (s w n us fmt).fault = 0 ∧ (s w n us fmt).regs.w = .put w ∧ (s w n us fmt).regs.n = .put n ∧
      (s w n us fmt).regs.us = .put us ∧ (s w n us fmt).regs.fmt = .put fmt) ∧
      (takes .cntAsm (s 16 1 0 3) 17 0x41 = true ∧ takes .cntAsm (s 0 3 0 0) 22 0x41 = true ∧
        takes .cntAsm (s 16 3 0 0) 18 0x41 = true ∧ takes .cntAsm { a with regs.us := .put 1 } 26 0x41 = true ∧
        takes .cntAsm { a with regs.fmt := .put 2 } 26 0x41 = true ∧
        takes .cntAsm { a with regs.fmt := .put 5 } 26 0x41 = true ∧
        takes .cntAsm { s 16 1 0 0 with cfg.containerMax := 10 } 24 0x41 = true ∧
        nextIs (exec .cntAsm { s 16 1 0 0 with cfg.containerMax := 11 }) { s 16 1 0 0 with
          cfg.containerMax := 11, regs.f4 := .put 11, regs.f6 := .put 11,
          mem.buf := .put v1 } = true ∧
        nextIs (exec .cntAsm a) { a with regs.f4 := .put 10, regs.f6 := .put 12, mem.buf := .put v5 } = true) := by
  refine ⟨fun _ _ _ _ => ⟨rfl, rfl, rfl, rfl, rfl⟩, by decide +kernel⟩

/-- A state ready for ENCODE. -/
def imaged (img : List Pixel) (w h : BitVec 8) (var : BitVec 1) : State :=
  { State.reset with mem.img := .put img, regs.w := .put w, regs.h := .put h, regs.var := .put var }

/-- The image of vector V5. -/
def v5Image : List Pixel := [rd, rd, gn, tr, ⟨10, 20, 30, 0⟩, gn]

/-- The image of vector V1. -/
def v1Image : List Pixel := List.replicate 5 k ++ List.replicate 5 wt ++ List.replicate 6 k

/-- T43.3: V5 and V1. -/
theorem test_encode_vectors :
    (after .encodeImage (imaged v5Image 3 2 1)).mem.buf = .put v5 ∧
      (after .encodeImage (imaged v1Image 16 1 0)).mem.buf = .put v1 := by decide +kernel

theorem test_witness_HeaderOffsetsAreConsistent :
    (imaged v5Image 3 2 1).fault = 0 ∧ completes .encodeImage (imaged v5Image 3 2 1) = true ∧
      completes .encodeImage (imaged v1Image 16 1 0) = true ∧
      completes .cntAsm { after .encodeImage (imaged v5Image 3 2 1) with eos := true } = true := by decide +kernel

/-- T43.3, the faults of ENCODE among them; a length one byte below and at the least that the container takes. -/
theorem test_witness_EncodeImageCompletes :
    let m := fun (n : Nat) => { imaged v5Image 3 2 1 with cfg.containerMax := n }
    (∀ img w h var, (imaged img w h var).fault = 0 ∧ (imaged img w h var).cfg.wf = true ∧
      (imaged img w h var).mem.img = .put img ∧ (imaged img w h var).regs.w = .put w ∧
      (imaged img w h var).regs.h = .put h ∧ (imaged img w h var).regs.var = .put var) ∧
      (takes .encodeImage State.reset 17 0x42 = true ∧ takes .encodeImage (imaged [] 0 4 1) 22 0x42 = true ∧
        takes .encodeImage (imaged [rd] 2 1 1) 26 0x42 = true ∧
        ¬monochrome Config.default (packedImage Config.default [rd]) ∧ takes .encodeImage (imaged [rd] 1 1 0) 23 0x42 = true ∧
        monochrome Config.default (packedImage Config.default [k, wt]) ∧ completes .encodeImage (imaged [k, wt] 2 1 0) = true ∧
        (ran encodeFrontSteps (m 14)).regs.fmt = .put 3 ∧
        (ran (encodeMiddleSteps 3) (ran encodeFrontSteps (m 14))).fault = 0 ∧
        (ran (encodeMiddleSteps 3) (ran encodeFrontSteps (m 14))).mem.rleb = .put [0x5A, 0xC0] ∧
        (ran (encodeMiddleSteps 3) (ran encodeFrontSteps (m 14))).mem.valb = .put [0x12, 0x40] ∧
        takes .encodeImage (m 14) 24 0x42 = true ∧ completes .encodeImage (m 15) = true ∧
        (after .encodeImage (m 15)).mem.buf = .put v5) := by
  refine ⟨fun _ _ _ _ => ⟨rfl, (by decide : Config.default.wf = true), rfl, rfl, rfl, rfl⟩, by decide +kernel⟩

/-- P2: one image of format 3, one of format 0. -/
theorem test_witness_EncodeImageEqualsItsSteps :
    (imaged v5Image 3 2 1).fault = 0 ∧ completes .encodeImage (imaged v5Image 3 2 1) = true ∧
      (after .encodeImage (imaged v5Image 3 2 1)).regs.fmt = .put 3 ∧
      completes .encodeImage (imaged v1Image 16 1 1) = true ∧
      (after .encodeImage (imaged v1Image 16 1 1)).regs.fmt = .put 0 := by decide +kernel

/-- T43.3, T43.2: a fault in the steps up to CLS.FMT, and one in the last step. -/
theorem test_witness_EncodeImageEqualsItsSteps_fault :
    let s := imaged [rd] 1 1 0
    let t := { imaged v5Image 3 2 1 with cfg.containerMax := 14 }
    (s.fault = 0 ∧ (ran encodeFrontSteps s).fault = 23 ∧ takes .encodeImage s 23 0x42 = true) ∧
    (t.fault = 0 ∧ (ran [.genVal, .rleMv, .cntSearch, .fixPack, .cntAsm] (ran encodeFrontSteps t)).fault = 24 ∧
      takes .encodeImage t 24 0x42 = true) := by decide +kernel

/-- T43.4: U1 under symmetric, whose container has the unscreen bit set. -/
theorem test_witness_DecodingAnEncodedImageGivesItBack :
    let s := { imaged (List.replicate 16 [k, wt]).flatten 32 1 1 with cfg.unscreen := .symmetric }
    s.fault = 0 ∧ s.cfg.wf = true ∧ s.cfg.unscreen ≠ .asObserved ∧
      (∀ c, (monoOf s.cfg c).isSome = true → c = 0xC0 ∨ c = 0xFF) ∧ completes .encodeImage s = true ∧
      (after .encodeImage s).regs.us = .put 1 ∧
      (after .decodeImage (after .encodeImage s)).mem.img = s.mem.img := by decide +kernel

/-! The parser, the expander and DECODE. -/

/-- A state with a container in BUF. -/
def holding (buf : List Byte) : State := { State.reset with mem.buf := .put buf }

/-- T44.1, T44.2. -/
theorem test_witness_CntParseResult :
    (∀ b, (holding b).fault = 0 ∧ (holding b).mem.buf = .put b) ∧
      (takes .cntParse State.reset 17 0x50 = true ∧ takes .cntParse (holding (v1.take 7)) 2 0x50 = true ∧
        takes .cntParse { holding v1 with cfg.containerMax := 10 } 24 0x50 = true ∧
        takes .cntParse (holding (v1.set 3 5)) 2 0x50 = true ∧ takes .cntParse (holding (v1.set 2 0x80)) 2 0x50 = true ∧
        takes .cntParse (holding (v1.set 4 7)) 2 0x50 = true ∧ takes .cntParse (holding (v1.set 6 12)) 2 0x50 = true ∧
        takes .cntParse (holding (v5 ++ [0xC0, 0xFF])) 2 0x50 = true ∧ takes .cntParse (holding (v5.take 12)) 2 0x50 = true ∧
        takes .cntParse (holding (v1.set 0 0)) 22 0x50 = true ∧ takes .cntParse (holding (v1.set 1 0)) 22 0x50 = true ∧
        takes .cntParse (holding ((v1.set 0 0).set 3 5)) 2 0x50 = true ∧
        nextIs (exec .cntParse (holding v5)) { holding v5 with
          regs.w := .put 3, regs.h := .put 2, regs.n := .put 1, regs.us := .put 0, regs.fmt := .put 3,
          regs.f4 := .put 10, regs.f6 := .put 12, regs.pw := .put 4, regs.vn := .put 2, mem.pal := .put [0xF0, 0xCC, 0x00],
          regs.rb := .put 8, regs.re := .put 10, regs.si := .put 8, regs.bi := .put 0 } = true) := by
  refine ⟨fun _ => ⟨rfl, rfl⟩, by decide +kernel⟩

/-- T44.4. -/
theorem test_witness_PixRescrResult :
    let s := fun (str : List Byte) (pw : BitVec 9) =>
      { State.reset with mem.str := .put str, regs.pw := .put pw, regs.h := .put 2 }
    (∀ str pw, (s str pw).fault = 0 ∧ (s str pw).mem.str = .put str ∧ (s str pw).regs.pw = .put pw ∧
      (s str pw).regs.h = .put 2) ∧
      (takes .pixRescr (s [] 0) 22 0x51 = true ∧ takes .pixRescr (s [0] 1) 26 0x51 = true ∧
        takes .pixRescr (s [0, 255] 1) 26 0x51 = true ∧
        nextIs (exec .pixRescr (s (List.replicate 8 0) 4)) (s [0, 1, 0, 1, 1, 0, 1, 0] 4) = true ∧
        (∀ x ∈ ([0, 255] : List Byte), x = 0 ∨ x = 255)) := by
  refine ⟨fun _ _ => ⟨rfl, rfl, rfl, rfl⟩, by decide +kernel⟩

/-- T44.4. -/
theorem test_witness_PalExpandResult :
    let s := fun (str : List Byte) (fmt : BitVec 8) (pw : BitVec 9) (pal : List Byte) =>
      { State.reset with mem.str := .put str, regs.fmt := .put fmt, regs.pw := .put pw, regs.h := .put 1, mem.pal := .put pal }
    (∀ str fmt pw pal, (s str fmt pw pal).fault = 0 ∧ (s str fmt pw pal).mem.str = .put str ∧
      (s str fmt pw pal).regs.fmt = .put fmt ∧ (s str fmt pw pal).regs.pw = .put pw ∧
      (s str fmt pw pal).regs.h = .put 1 ∧ (s str fmt pw pal).mem.pal = .put pal) ∧
      (takes .palExpand { s [0] 2 1 [] with mem.pal := .none [] } 17 0x52 = true ∧
        takes .palExpand (s [] 0 0 []) 22 0x52 = true ∧ takes .palExpand (s [255] 0 1 []) 26 0x52 = true ∧
        takes .palExpand (s [0] 5 1 [1]) 26 0x52 = true ∧ takes .palExpand (s [0] 2 1 [0xF0, 0xCC, 0]) 26 0x52 = true ∧
        takes .palExpand (s [1] 2 1 [0xF0]) 2 0x52 = true ∧
        nextIs (exec .palExpand (s [0, 1] 0 2 [])) { s [0, 1] 0 2 [] with mem.pimg := .put [k, wt] } = true ∧
        nextIs (exec .palExpand (s [192, 188] 1 2 [])) { s [192, 188] 1 2 [] with mem.pimg := .put [k, ⟨255, 255, 0, 170⟩] } = true ∧
        nextIs (exec .palExpand (s [0, 1, 2] 3 3 [0xF0, 0xCC, 0])) { s [0, 1, 2] 3 3 [0xF0, 0xCC, 0] with
          mem.pimg := .put [rd, gn, tr] } = true) := by
  refine ⟨fun _ _ _ _ => ⟨rfl, rfl, rfl, rfl, rfl, rfl⟩, by decide +kernel⟩

/-- T44.4. -/
theorem test_witness_PixCropResult :
    let s := fun (p : List Pixel) (w h : BitVec 8) (pw : BitVec 9) =>
      { State.reset with mem.pimg := .put p, regs.w := .put w, regs.h := .put h, regs.pw := .put pw }
    let p := [rd, rd, gn, rd, tr, tr, gn, rd]
    (∀ p w h pw, (s p w h pw).fault = 0 ∧ (s p w h pw).mem.pimg = .put p ∧ (s p w h pw).regs.w = .put w ∧
      (s p w h pw).regs.h = .put h ∧ (s p w h pw).regs.pw = .put pw) ∧
      (takes .pixCrop (s p 0 2 4) 22 0x53 = true ∧ takes .pixCrop (s p 5 2 4) 26 0x53 = true ∧
        takes .pixCrop (s p 4 1 4) 26 0x53 = true ∧
        nextIs (exec .pixCrop (s p 3 2 4)) { s p 3 2 4 with mem.img := .put [rd, rd, gn, tr, tr, gn] } = true) := by
  refine ⟨fun _ _ _ _ => ⟨rfl, rfl, rfl, rfl, rfl⟩, by decide +kernel⟩

/-- T43.3, T43.4: V1, and V1 with bit 7 set by hand under off and symmetric. -/
theorem test_witness_DecodeOfAMonochromeContainer :
    let s := fun (p : UnscreenPolicy) => { holding (v1.set 2 0x81) with cfg.unscreen := p }
    (isChunkWidth 1 ∧ (∀ r ∈ [6, 5, 22], 1 ≤ r) ∧ [6, 5, 22].sum = paddedWidth 0 16 * 1 + 1 ∧
      packSeq [6, 5, 22] 1 = [0x31, 0x42, 0xC0] ∧ 8 + 3 ≤ State.reset.cfg.containerMax) ∧
    (after .decodeImage (holding v1)).mem.img = .put v1Image ∧ takes .decodeImage (s .off) 25 0x54 = true ∧
    (after .decodeImage (s .symmetric)).mem.img = .put [k, wt, k, wt, k, k, wt, k, wt, k, k, wt, k, wt, k, wt] ∧
    (after .decodeImage (s .asObserved)).mem.img = .put v1Image := by decide +kernel

/-- T44.3: V5's container with non-maximal runs, and T44.1: with bit 7 set. -/
theorem test_witness_DecodeOfAColorContainer :
    let runs := [1, 1, 1, 1, 2, 1, 1]
    let vals : List Byte := [0, 0, 1, 0, 2, 1, 0]
    (isChunkWidth 1 ∧ (∀ r ∈ runs, 1 ≤ r) ∧ runs.sum = paddedWidth 3 3 * 2 ∧ vals.length = runs.length ∧
      packSeq runs 1 = [0xF5, 0x80] ∧ packGroups (vals.map BitVec.toNat) (valueWidth 3) = [0x04, 0x90] ∧
      3 ≤ maxPalette 3 ∧ ∀ v ∈ vals, v.toNat < 3) ∧
    (after .decodeImage (holding
      [0x03, 0x02, 0x01, 0x03, 0x0A, 0x00, 0x0C, 0x00, 0xF5, 0x80, 0x04, 0x90, 0xF0, 0xCC, 0x00])).mem.img =
        .put [rd, rd, gn, tr, tr, gn] ∧
    (after .decodeImage (holding (v5.set 2 0x81))).mem.img = .put [rd, rd, gn, tr, tr, gn] := by decide +kernel

/-- T43.3: V10 (format 2) and V9 (format 4), and a container of format 1 of two pixels. -/
theorem test_witness_DecodeOfAColorContainer_formats :
    (packSeq [8] 1 = [0x10] ∧ packGroups [0] (valueWidth 2) = [0x00] ∧ [8].sum = paddedWidth 2 2 * 1 ∧
      (after .decodeImage (holding [0x02, 0x01, 0x01, 0x02, 0x09, 0x00, 0x0A, 0x00, 0x10, 0x00, 0xF2])).mem.img =
        .put [⟨255, 0, 170, 255⟩, ⟨255, 0, 170, 255⟩]) ∧
    (packSeq [1, 1, 1, 1, 1, 1] 1 = [0xFC] ∧ packGroups [0, 1, 2, 3, 4, 0] (valueWidth 4) = [0x01, 0x23, 0x40] ∧
      [1, 1, 1, 1, 1, 1].sum = paddedWidth 4 5 * 1 ∧
      (after .decodeImage (holding [0x05, 0x01, 0x01, 0x04, 0x09, 0x00, 0x0C, 0x00, 0xFC, 0x01, 0x23, 0x40, 0xF0, 0xCC,
        0xC3, 0xC0, 0xBC])).mem.img = .put [rd, gn, ⟨0, 0, 255, 255⟩, k, ⟨255, 255, 0, 170⟩]) ∧
    (packSeq [1, 1] 1 = [0xC0] ∧ packGroups [0xC0, 0xBC] (valueWidth 1) = [0xC0, 0xBC] ∧ [1, 1].sum = paddedWidth 1 2 * 1 ∧
      (after .decodeImage (holding [0x02, 0x01, 0x01, 0x01, 0x09, 0x00, 0x0B, 0x00, 0xC0, 0xC0, 0xBC])).mem.img =
        .put [k, ⟨255, 255, 0, 170⟩]) := by decide +kernel

/-- P3 and V1: one container of each path. -/
theorem test_witness_DecodeImageEqualsItsSteps :
    (holding v5).fault = 0 ∧ completes .decodeImage (holding v5) = true ∧
      (after .decodeImage (holding v5)).regs.rb = .put 10 ∧ completes .decodeImage (holding v1) = true := by decide +kernel

/-- T44.2, T43.4, T44.3: a fault of CNT.PARSE, UnscreenUnsupported, a fault of SEQ.UNPACK, of RLX.BIN, of PAL.EXPAND. -/
theorem test_witness_DecodeImageEqualsItsSteps_fault :
    let runs20 := holding [0x10, 0x01, 0x01, 0x00, 0x0B, 0x00, 0x0B, 0x00, 0x31, 0x42, 0x80]
    let short := holding (v5.take 14)
    let window := fun (u : State) => { u with regs.rb := .put 10, regs.re := .put 12 }
    ((after .cntParse (holding (v1.set 3 5))).fault = 2 ∧ takes .decodeImage (holding (v1.set 3 5)) 2 0x54 = true) ∧
    ((after .cntParse (holding (v1.set 2 0x81))).fault = 0 ∧ takes .decodeImage (holding (v1.set 2 0x81)) 25 0x54 = true) ∧
    ((ran [.cntParse, .seqUnpack] (holding (v1.set 10 0xC1))).fault = 2 ∧
      takes .decodeImage (holding (v1.set 10 0xC1)) 2 0x54 = true) ∧
    ((ran [.cntParse, .seqUnpack] runs20).fault = 0 ∧ (ran [.cntParse, .seqUnpack, .rlxBin] runs20).fault = 2 ∧
      takes .decodeImage runs20 2 0x54 = true) ∧
    ((ran [.fixUnpack, .rlxMv] (window (ran [.cntParse, .seqUnpack] short))).fault = 0 ∧
      (ran [.fixUnpack, .rlxMv, .palExpand] (window (ran [.cntParse, .seqUnpack] short))).fault = 2 ∧
      takes .decodeImage short 2 0x54 = true) := by decide +kernel

/-- T44.2, T44.3: each fault that DECODE raises, and none. -/
theorem test_witness_DecodeImageFaultsOnlyAsStated :
    (∀ b, (holding b).fault = 0 ∧ (holding b).mem.buf = .put b) ∧
      (State.reset.mem.buf.valid = false ∧ takes .decodeImage State.reset 17 0x54 = true ∧
        takes .decodeImage (holding (v1.set 10 0xC1)) 2 0x54 = true ∧
        takes .decodeImage { holding v1 with cfg.containerMax := 10 } 24 0x54 = true ∧
        takes .decodeImage (holding (v1.set 0 0)) 22 0x54 = true ∧
        takes .decodeImage (holding (v1.set 2 0x81)) 25 0x54 = true ∧
        takes .decodeImage { holding [1, 1, 8, 0, 13, 0, 13, 0, 0, 0, 1, 0, 0] with cfg.vbits := some 16 } 20 0x54 = true ∧
        completes .decodeImage (holding v1) = true) := by
  refine ⟨fun _ => ⟨rfl, rfl⟩, by decide +kernel⟩

end Sys2Proof.Tests
end

section
/-! SUPPORT. An operation's effect as a list of writes: what one write does to each location (a register, a buffer or a
flag), and what follows for a list of writes. -/

namespace Sys2Proof.Machine

/-- What an operation can read or write: a register, a buffer or a flag (10_state.md R33). -/
inductive Loc where
  | place (p : Place)
  | eos
  | tooMany
deriving DecidableEq, Repr

/-- What stands in a location. A flag always holds a value (10_state.md R24). -/
def State.loc (s : State) (l : Loc) : Slot HostValue :=
  match l with
  | .place p => s.place p
  | .eos => .put (.number s.eos.toNat)
  | .tooMany => .put (.number s.tooMany.toNat)

/-- The number that stands in a flag's location decides the flag. -/
theorem HostValue.flag_injective : Function.Injective (fun b : Bool => HostValue.number b.toNat) := by decide

theorem State.eos_eq_of_loc {s t : State} (h : t.loc .eos = s.loc .eos) : t.eos = s.eos :=
  HostValue.flag_injective (congrArg Slot.val h)

theorem State.tooMany_eq_of_loc {s t : State} (h : t.loc .tooMany = s.loc .tooMany) : t.tooMany = s.tooMany :=
  HostValue.flag_injective (congrArg Slot.val h)

/-- The write of one register, without the host's check of `V` against `VBITS`. -/
def State.setReg (s : State) (x : RegWrite) : State :=
  match x with
  | .v x => s.setV x
  | .n x => s.setN x
  | .vn x => s.setVn x
  | .w x => s.setW x
  | .h x => s.setH x
  | .pw x => s.setPw x
  | .fmt x => s.setFmt x
  | .var x => s.setVar x
  | .us x => s.setUs x
  | .f4 x => s.setF4 x
  | .f6 x => s.setF6 x
  | .rb x => s.setRb x
  | .re x => s.setRe x
  | .si x => s.setSi x
  | .bi x => s.setBi x

/-- The write of one location with its value. -/
inductive Write where
  | reg (x : RegWrite)
  | buf (x : BufWrite)
  | eos (x : Bool)
  | tooMany (x : Bool)

/-- The location a write names. -/
def Write.loc (w : Write) : Loc :=
  match w with
  | .reg x => .place (.reg x.name)
  | .buf x => .place (.buf x.name)
  | .eos _ => .eos
  | .tooMany _ => .tooMany

/-- The value a write stores. -/
def Write.value (w : Write) : HostValue :=
  match w with
  | .reg x => .number x.value
  | .buf x => x.value
  | .eos x => .number x.toNat
  | .tooMany x => .number x.toNat

/-- The state after one write. -/
def Write.apply (w : Write) (s : State) : State :=
  match w with
  | .reg x => s.setReg x
  | .buf x => hostLoad x s
  | .eos x => s.setEos x
  | .tooMany x => s.setTooMany x

/-- The state after a list of writes, made in order. -/
def applyWrites (ws : List Write) (s : State) : State := ws.foldl (fun u w => w.apply u) s

@[simp] theorem applyWrites_nil (s : State) : applyWrites [] s = s := rfl

@[simp] theorem applyWrites_cons (w : Write) (ws : List Write) (s : State) :
    applyWrites (w :: ws) s = applyWrites ws (w.apply s) := rfl

theorem applyWrites_append (ws vs : List Write) (s : State) :
    applyWrites (ws ++ vs) s = applyWrites vs (applyWrites ws s) := List.foldl_append

/-! One write. -/

theorem State.setReg_mem (s : State) (x : RegWrite) : (s.setReg x).mem = s.mem := by cases x <;> rfl

theorem hostLoad_regs (s : State) (x : BufWrite) : (hostLoad x s).regs = s.regs := by cases x <;> rfl

/-- A place of the registers depends on the registers only. -/
theorem State.place_reg_congr {s t : State} (h : t.regs = s.regs) (r : RegName) :
    t.place (.reg r) = s.place (.reg r) := by
  cases r <;> simp only [State.place, h]

/-- A place of the buffers depends on the buffers only. -/
theorem State.place_buf_congr {s t : State} (h : t.mem = s.mem) (b : BufName) :
    t.place (.buf b) = s.place (.buf b) := by
  cases b <;> simp only [State.place, h]

/-- What stands in each place after a register is written (10_state.md R22). -/
theorem State.place_setReg (s : State) (x : RegWrite) (p : Place) :
    (s.setReg x).place p = if p = .reg x.name then .put (.number x.value) else s.place p := by
  cases p with
  | reg r => cases x <;> cases r <;> rfl
  | buf b =>
    rw [if_neg (by simp)]
    exact State.place_buf_congr (s.setReg_mem x) b

/-- What stands in each place after a buffer is written (10_state.md R22, 20_memory.md R72). -/
theorem State.place_hostLoad (s : State) (x : BufWrite) (p : Place) :
    (hostLoad x s).place p = if p = .buf x.name then .put x.value else s.place p := by
  cases p with
  | reg r =>
    rw [if_neg (by simp)]
    exact State.place_reg_congr (hostLoad_regs s x) r
  | buf b => cases x <;> cases b <;> rfl

/-- A write changes the location it names and no other. -/
theorem Write.loc_apply (w : Write) (s : State) (l : Loc) :
    (w.apply s).loc l = if l = w.loc then .put w.value else s.loc l := by
  cases w with
  | reg x =>
    cases l with
    | place p =>
      simp only [Write.loc, Loc.place.injEq]
      exact s.place_setReg x p
    | eos => cases x <;> rfl
    | tooMany => cases x <;> rfl
  | buf x =>
    cases l with
    | place p =>
      simp only [Write.loc, Loc.place.injEq]
      exact s.place_hostLoad x p
    | eos => cases x <;> rfl
    | tooMany => cases x <;> rfl
  | eos x => cases l <;> rfl
  | tooMany x => cases l <;> rfl

/-- No write changes the parameters, `FAULT`, `FOP` or the host's moves. -/
theorem Write.apply_frame (w : Write) (s : State) :
    (w.apply s).cfg = s.cfg ∧ (w.apply s).fault = s.fault ∧ (w.apply s).fop = s.fop ∧ (w.apply s).host = s.host := by
  cases w with
  | reg x => cases x <;> exact ⟨rfl, rfl, rfl, rfl⟩
  | buf x => cases x <;> exact ⟨rfl, rfl, rfl, rfl⟩
  | eos x => exact ⟨rfl, rfl, rfl, rfl⟩
  | tooMany x => exact ⟨rfl, rfl, rfl, rfl⟩

/-! A list of writes. -/

theorem applyWrites_frame (ws : List Write) (s : State) :
    (applyWrites ws s).cfg = s.cfg ∧ (applyWrites ws s).fault = s.fault ∧ (applyWrites ws s).fop = s.fop ∧
      (applyWrites ws s).host = s.host := by
  induction ws generalizing s with
  | nil => exact ⟨rfl, rfl, rfl, rfl⟩
  | cons w ws ih =>
    obtain ⟨hcfg, hfault, hfop, hhost⟩ := w.apply_frame s
    rw [applyWrites_cons, ← hcfg, ← hfault, ← hfop, ← hhost]
    exact ih (w.apply s)

@[simp] theorem applyWrites_cfg (ws : List Write) (s : State) : (applyWrites ws s).cfg = s.cfg := by
  obtain ⟨h, -, -, -⟩ := applyWrites_frame ws s
  exact h

@[simp] theorem applyWrites_fault (ws : List Write) (s : State) : (applyWrites ws s).fault = s.fault := by
  obtain ⟨-, h, -, -⟩ := applyWrites_frame ws s
  exact h

@[simp] theorem applyWrites_host (ws : List Write) (s : State) : (applyWrites ws s).host = s.host := by
  obtain ⟨-, -, -, h⟩ := applyWrites_frame ws s
  exact h

/-- A location that no write of the list names is left as it was. -/
theorem loc_applyWrites_of_notMem {ws : List Write} {l : Loc} (h : l ∉ ws.map Write.loc) (s : State) :
    (applyWrites ws s).loc l = s.loc l := by
  induction ws generalizing s with
  | nil => rfl
  | cons w ws ih =>
    rw [List.map_cons, List.mem_cons, not_or] at h
    obtain ⟨hw, hws⟩ := h
    rw [applyWrites_cons, ih hws, w.loc_apply, if_neg hw]

/-- A location that a write of the list names ends with a value that the list alone decides. -/
theorem loc_applyWrites_of_mem {ws : List Write} {l : Loc} (h : l ∈ ws.map Write.loc) (s s' : State) :
    (applyWrites ws s).loc l = (applyWrites ws s').loc l := by
  induction ws generalizing s s' with
  | nil => cases h
  | cons w ws ih =>
    rw [applyWrites_cons, applyWrites_cons]
    by_cases hl : l ∈ ws.map Write.loc
    · exact ih hl _ _
    · have hw : l = w.loc := by simpa [hl] using h
      rw [loc_applyWrites_of_notMem hl, loc_applyWrites_of_notMem hl, w.loc_apply, w.loc_apply, if_pos hw, if_pos hw]

/-- From two states, a list of writes leaves a location equal in both or as it was in both. -/
theorem loc_applyWrites_eq_or_kept (ws : List Write) (l : Loc) (s s' : State) :
    (applyWrites ws s).loc l = (applyWrites ws s').loc l ∨
      ((applyWrites ws s).loc l = s.loc l ∧ (applyWrites ws s').loc l = s'.loc l) := by
  by_cases hl : l ∈ ws.map Write.loc
  · exact .inl (loc_applyWrites_of_mem hl s s')
  · exact .inr ⟨loc_applyWrites_of_notMem hl s, loc_applyWrites_of_notMem hl s'⟩

/-- No list of writes clears a valid bit (10_state.md R22). -/
theorem loc_applyWrites_valid {l : Loc} (ws : List Write) {s : State} (h : (s.loc l).valid = true) :
    ((applyWrites ws s).loc l).valid = true := by
  induction ws generalizing s with
  | nil => exact h
  | cons w ws ih =>
    refine ih ?_
    rw [w.loc_apply]
    split
    · rfl
    · exact h

/-- Every write keeps the canonical form of the registers. -/
theorem Write.apply_regs_wf (w : Write) {s : State} (h : s.regs.wf = true) : (w.apply s).regs.wf = true := by
  cases w with
  | reg x =>
    cases x with
    | v x => exact State.setV_regs_wf x h
    | n x => exact State.setN_regs_wf x h
    | vn x => exact State.setVn_regs_wf x h
    | w x => exact State.setW_regs_wf x h
    | h x => exact State.setH_regs_wf x h
    | pw x => exact State.setPw_regs_wf x h
    | fmt x => exact State.setFmt_regs_wf x h
    | var x => exact State.setVar_regs_wf x h
    | us x => exact State.setUs_regs_wf x h
    | f4 x => exact State.setF4_regs_wf x h
    | f6 x => exact State.setF6_regs_wf x h
    | rb x => exact State.setRb_regs_wf x h
    | re x => exact State.setRe_regs_wf x h
    | si x => exact State.setSi_regs_wf x h
    | bi x => exact State.setBi_regs_wf x h
  | buf x => exact hostLoad_regs s x ▸ h
  | eos x => exact h
  | tooMany x => exact h

/-- Every write keeps the canonical form of the buffers. -/
theorem Write.apply_mem_wf (w : Write) {s : State} (h : s.mem.wf = true) : (w.apply s).mem.wf = true := by
  cases w with
  | reg x => exact s.setReg_mem x ▸ h
  | buf x => exact hostLoad_mem_wf x h
  | eos x => exact h
  | tooMany x => exact h

theorem applyWrites_regs_wf (ws : List Write) {s : State} (h : s.regs.wf = true) :
    (applyWrites ws s).regs.wf = true := by
  induction ws generalizing s with
  | nil => exact h
  | cons w ws ih => exact ih (w.apply_regs_wf h)

theorem applyWrites_mem_wf (ws : List Write) {s : State} (h : s.mem.wf = true) :
    (applyWrites ws s).mem.wf = true := by
  induction ws generalizing s with
  | nil => exact h
  | cons w ws ih => exact ih (w.apply_mem_wf h)

end Sys2Proof.Machine
end

section
/-! SUPPORT. Two runs of one computation side by side, with the same parameters: how they read their operands, and what
it means that they make the same writes. One walk through a body gives its faults for missing operands, its frame and
its independence from everything it does not read. -/

namespace Sys2Proof.Machine

/-- Two computations that end in the same fault, or in results that `R` relates. -/
inductive Both {α : Type} (R : α → α → Prop) : Except FaultCode α → Except FaultCode α → Prop where
  | error (x : FaultCode) : Both R (.error x) (.error x)
  | ok {a b : α} (h : R a b) : Both R (.ok a) (.ok b)

/-- The two results are made by one list of writes of the kind `Q`. -/
def Moved (Q : List Write → Prop) (s s' t t' : State) : Prop :=
  ∃ ws, Q ws ∧ t = applyWrites ws s ∧ t' = applyWrites ws s'

/-- Two runs, from `s` and `s'`, that read the places `ps`: where one of these holds no value in `s` the first run
raises `OperandInvalid`, and where both states read the same there, the runs end as `R` says. -/
structure Follows (ps : List Place) (R : State → State → Prop) (s s' : State) (r r' : Except FaultCode State) :
    Prop where
  invalid : ∀ p ∈ ps, (s.place p).valid = false → r = .error .operandInvalid
  both : (∀ p ∈ ps, (s.place p).read = (s'.place p).read) → Both R r r'

section Both

variable {α β : Type} {R : α → α → Prop} {R' : β → β → Prop} {x y : Except FaultCode α} {f g : α → Except FaultCode β}

theorem Both.mono {S : α → α → Prop} (h : Both R x y) (hS : ∀ a b, R a b → S a b) : Both S x y := by
  cases h with
  | error e => exact .error e
  | ok h => exact .ok (hS _ _ h)

theorem Both.bind (h : Both R x y) (k : ∀ a b, R a b → Both R' (f a) (g b)) : Both R' (x >>= f) (y >>= g) := by
  cases h with
  | error e => exact .error e
  | ok h => exact k _ _ h

/-- A part that does not depend on the state is the same in both runs. -/
theorem Both.step (x : Except FaultCode α) (k : ∀ a, x = .ok a → Both R' (f a) (g a)) :
    Both R' (x >>= f) (x >>= g) := by
  cases x with
  | error e => exact .error e
  | ok a => exact k a rfl

theorem Both.writes {Q : List Write → Prop} {s s' : State} (ws : List Write) (h : Q ws) :
    Both (Moved Q s s') (.ok (applyWrites ws s)) (.ok (applyWrites ws s')) :=
  .ok ⟨ws, h, rfl, rfl⟩

end Both

section Follows

variable {α : Type} {ps : List Place} {R : State → State → Prop} {s s' : State} {p : Place} {x y : Slot α}
  {v : α → HostValue} {f f' : α → Except FaultCode State}

/-- A place read through an injective view shows whether two slots read the same. -/
theorem Slot.read_eq_of_map (hv : Function.Injective v) (h : (x.map v).read = (y.map v).read) : x.read = y.read := by
  rcases x with ⟨bx, a⟩
  rcases y with ⟨b', b⟩
  cases bx <;> cases b' <;> simp_all [Slot.read, Slot.map, hv.eq_iff]

/-- The same seen through an injective view is the same. -/
theorem Slot.map_injective (hv : Function.Injective v) : Function.Injective (Slot.map v) := by
  rintro ⟨b, a⟩ ⟨b', a'⟩ h
  obtain ⟨hvalid, hval⟩ := Slot.mk.inj h
  exact congr (congrArg Slot.mk hvalid) (hv hval)

theorem Follows.done {r r' : Except FaultCode State} (h : Both R r r') : Follows [] R s s' r r' :=
  ⟨fun _ hp => absurd hp List.not_mem_nil, fun _ => h⟩

/-- Reading one operand (10_state.md R23). -/
theorem Follows.read (hv : Function.Injective v) (k : ∀ a, x = .put a → Follows ps R s s' (f a) (f' a))
    (hx : s.place p = x.map v := by rfl) (hy : s'.place p = y.map v := by rfl) :
    Follows (p :: ps) R s s' (x.read >>= f) (y.read >>= f') where
  invalid q hq hval := by
    cases hr : x.read with
    | error e =>
      obtain ⟨-, rfl⟩ := Slot.read_eq_error.mp hr
      rfl
    | ok a =>
      obtain rfl := Slot.read_eq_ok.mp hr
      rcases List.mem_cons.mp hq with rfl | hq
      · rw [hx] at hval
        cases hval
      · exact (k a rfl).invalid q hq hval
  both hread := by
    have hxy : x.read = y.read := Slot.read_eq_of_map hv (by rw [← hx, ← hy]; exact hread p List.mem_cons_self)
    rw [← hxy]
    refine .step x.read fun a ha => (k a (Slot.read_eq_ok.mp ha)).both fun q hq => ?_
    exact hread q (List.mem_cons_of_mem p hq)

/-- Reading one operand under a condition (60_exceptions.md R306 item 4). -/
theorem Follows.readIf {c : Prop} [Decidable c] {d : α} {qs : List Place} (hv : Function.Injective v)
    (hq : qs = (if c then [p] else []) ++ ps) (k : ∀ a, Follows ps R s s' (f a) (f' a))
    (hx : s.place p = x.map v := by rfl) (hy : s'.place p = y.map v := by rfl) :
    Follows qs R s s' (x.readIf c d >>= f) (y.readIf c d >>= f') := by
  rw [hq]
  by_cases hc : c
  · rw [Slot.readIf_pos hc, Slot.readIf_pos hc, if_pos hc]
    exact .read hv (fun a _ => k a) hx hy
  · rw [Slot.readIf_neg hc, Slot.readIf_neg hc, if_neg hc]
    exact k d

end Follows

/-! The views through which a place shows its contents are injective. -/

theorem HostValue.number_injective : Function.Injective HostValue.number := fun _ _ => HostValue.number.inj

theorem HostValue.word_injective {n : Nat} : Function.Injective (fun x : BitVec n => HostValue.number x.toNat) :=
  fun _ _ h => BitVec.eq_of_toNat_eq (HostValue.number.inj h)

theorem HostValue.pixels_injective : Function.Injective HostValue.pixels := fun _ _ => HostValue.pixels.inj

theorem HostValue.bytes_injective : Function.Injective HostValue.bytes := fun _ _ => HostValue.bytes.inj

theorem HostValue.numbers_injective : Function.Injective HostValue.numbers := fun _ _ => HostValue.numbers.inj

end Sys2Proof.Machine
end

section
/-! SUPPORT. Each operation that is not a composite, two runs side by side: it reads the places of its read set first
and then makes writes that fill its write set (10_state.md R33). -/

namespace Sys2Proof.Machine

open HostValue

/-- The places and flags an operation may write (10_state.md R24, R33). -/
def writeLocs (i : Instr) : List Loc :=
  (writeSet i).map .place ++ (if writesEos i then [.eos] else []) ++ (if writesTooMany i then [.tooMany] else [])

/-- The writes `ws` from `s` are in the write set of `i` and fill it, but for `VN`, which an operation that chooses
format 0 leaves (41_pixel_classifier_quantizer.md R177, 44_decoder_pipeline.md R261). -/
structure Fills (i : Instr) (s : State) (ws : List Write) : Prop where
  within : ∀ w ∈ ws, w.loc ∈ writeLocs i
  covers : ∀ l ∈ writeLocs i, l ∈ ws.map Write.loc ∨ (l = .place (.reg .vn) ∧ (applyWrites ws s).regs.fmt = .put 0)

/-- Writes of exactly the write set fill it. -/
theorem Fills.exact {i : Instr} {s : State} {ws : List Write} (h : ws.map Write.loc = writeLocs i) : Fills i s ws where
  within _ hw := h ▸ List.mem_map_of_mem hw
  covers _ hl := .inl (h ▸ hl)

/-- Writes of the write set but `VN` fill it where they leave format 0. -/
theorem Fills.exceptVn {i : Instr} {s : State} {ws : List Write} {ls : List Loc} (h : ws.map Write.loc = ls)
    (hi : ∀ l ∈ ls, l ∈ writeLocs i) (hl : ∀ l ∈ writeLocs i, l ∈ ls ∨ l = .place (.reg .vn))
    (hf : (applyWrites ws s).regs.fmt = .put 0) : Fills i s ws where
  within _ hw := hi _ (h ▸ List.mem_map_of_mem hw)
  covers l hm := (hl l hm).imp (fun hm => h ▸ hm) (fun hm => ⟨hm, hf⟩)

section

variable {s s' : State}

theorem opVwiEnc_follows :
    Follows (readSet .vwiEnc s) (Moved (Fills .vwiEnc s) s s') s s' (opVwiEnc s) (opVwiEnc s') := by
  unfold opVwiEnc
  exact .read number_injective fun v _ => .read word_injective fun n _ => .done (.step _ fun _ _ => .step _ fun _ _ =>
    .writes [.buf (.sym (chop v n.toNat))] (.exact rfl))

theorem opVwiDec_follows (hc : s.cfg = s'.cfg) :
    Follows (readSet .vwiDec s) (Moved (Fills .vwiDec s) s s') s s' (opVwiDec s) (opVwiDec s') := by
  unfold opVwiDec
  rw [hc]
  refine .read bytes_injective fun buf _ => .read word_injective fun re _ => .read word_injective fun si _ =>
    .read word_injective fun bi _ => .read word_injective fun n _ => .done (.step _ fun _ _ => .step _ fun _ _ =>
    .step _ fun _ _ => .step _ fun _ _ => ?_)
  cases nextValue buf re.toNat (8 * si.toNat + bi.toNat) n.toNat with
  | value v p =>
    exact .step _ fun _ _ => .writes [.reg (.v v), .reg (.si (BitVec.ofNat 17 (p / 8))),
      .reg (.bi (BitVec.ofNat 3 (p % 8))), .eos false] (.exact rfl)
  | endOfStream p =>
    exact .writes [.reg (.v 0), .reg (.si (BitVec.ofNat 17 re.toNat)), .reg (.bi 0), .eos true] (.exact rfl)
  | truncated => exact .error _

theorem opChkPack_follows :
    Follows (readSet .chkPack s) (Moved (Fills .chkPack s) s s') s s' (opChkPack s) (opChkPack s') := by
  unfold opChkPack
  exact .read numbers_injective fun sym _ => .read word_injective fun n _ => .done (.step _ fun _ _ =>
    .step _ fun _ _ => .writes [.buf (.rleb (packGroups sym n.toNat))] (.exact rfl))

theorem opChkGet_follows :
    Follows (readSet .chkGet s) (Moved (Fills .chkGet s) s s') s s' (opChkGet s) (opChkGet s') := by
  unfold opChkGet
  refine .read bytes_injective fun buf _ => .read word_injective fun re _ => .read word_injective fun si _ =>
    .read word_injective fun bi _ => .read word_injective fun n _ => .done (.step _ fun _ _ => .step _ fun _ _ =>
    .step _ fun _ _ => .step _ fun _ _ => ?_)
  by_cases hend : si = re
  · rw [if_pos hend, if_pos hend]
    exact .writes [.reg (.v 0), .reg (.si (BitVec.ofNat 17 si.toNat)), .reg (.bi (BitVec.ofNat 3 bi.toNat)), .eos true]
      (.exact rfl)
  · rw [if_neg hend, if_neg hend]
    by_cases hbyte : bi.toNat + n.toNat = 8
    · simp only [if_pos hbyte]
      exact .writes [.reg (.v (group buf (8 * si.toNat + bi.toNat) n.toNat)),
        .reg (.si (BitVec.ofNat 17 (si.toNat + 1))), .reg (.bi 0), .eos false] (.exact rfl)
    · simp only [if_neg hbyte]
      exact .writes [.reg (.v (group buf (8 * si.toNat + bi.toNat) n.toNat)), .reg (.si (BitVec.ofNat 17 si.toNat)),
        .reg (.bi (BitVec.ofNat 3 (bi.toNat + n.toNat))), .eos false] (.exact rfl)

theorem opSeqPack_follows :
    Follows (readSet .seqPack s) (Moved (Fills .seqPack s) s s') s s' (opSeqPack s) (opSeqPack s') := by
  unfold opSeqPack
  exact .read numbers_injective fun run _ => .read word_injective fun n _ => .done (.step _ fun _ _ =>
    .step _ fun _ _ => .writes [.buf (.rleb (packSeq run n.toNat))] (.exact rfl))

theorem opSeqUnpack_follows (hc : s.cfg = s'.cfg) :
    Follows (readSet .seqUnpack s) (Moved (Fills .seqUnpack s) s s') s s' (opSeqUnpack s) (opSeqUnpack s') := by
  unfold opSeqUnpack
  rw [hc]
  refine .read bytes_injective fun buf _ => .read word_injective fun rb _ => .read word_injective fun re _ =>
    .read word_injective fun n _ => .done (.step _ fun _ _ => .step _ fun _ _ => ?_)
  cases unpackSeq buf rb.toNat re.toNat n.toNat with
  | none => exact .error _
  | some r =>
    exact .step _ fun _ _ => .writes [.buf (.run r), .reg (.si (BitVec.ofNat 17 re.toNat)), .reg (.bi 0), .eos true]
      (.exact rfl)

theorem opFixPack_follows :
    Follows (readSet .fixPack s) (Moved (Fills .fixPack s) s s') s s' (opFixPack s) (opFixPack s') := by
  unfold opFixPack
  exact .read bytes_injective fun vals _ => .read word_injective fun vn _ => .done (.step _ fun _ _ =>
    .step _ fun _ _ => .writes [.buf (.valb (packGroups (vals.map BitVec.toNat) vn.toNat))] (.exact rfl))

theorem opFixUnpack_follows :
    Follows (readSet .fixUnpack s) (Moved (Fills .fixUnpack s) s s') s s' (opFixUnpack s) (opFixUnpack s') := by
  unfold opFixUnpack
  exact .read bytes_injective fun buf _ => .read word_injective fun rb _ => .read word_injective fun re _ =>
    .read word_injective fun vn _ => .read numbers_injective fun run _ => .done (.step _ fun _ _ => .step _ fun _ _ =>
    .step _ fun _ _ => .writes
      [.buf (.vals (((groupsFrom buf re.toNat (8 * rb.toNat) vn.toNat).take run.length).map toByte))] (.exact rfl))

theorem opCurSet_follows :
    Follows (readSet .curSet s) (Moved (Fills .curSet s) s s') s s' (opCurSet s) (opCurSet s') := by
  unfold opCurSet
  exact .read bytes_injective fun buf _ => .read word_injective fun rb _ => .read word_injective fun re _ =>
    .done (.step _ fun _ _ => .writes [.reg (.si (BitVec.ofNat 17 rb.toNat)), .reg (.bi 0), .eos false] (.exact rfl))

theorem opPixClean_follows :
    Follows (readSet .pixClean s) (Moved (Fills .pixClean s) s s') s s' (opPixClean s) (opPixClean s') := by
  unfold opPixClean
  exact .read pixels_injective fun img _ => .done (.writes [.buf (.wimg (img.map cleanPixel))] (.exact rfl))

theorem opPixQuant_follows (hc : s.cfg = s'.cfg) :
    Follows (readSet .pixQuant s) (Moved (Fills .pixQuant s) s s') s s' (opPixQuant s) (opPixQuant s') := by
  unfold opPixQuant
  rw [hc]
  exact .read pixels_injective fun wimg _ => .done (.writes [.buf (.wimg (wimg.map (quantPixel s'.cfg)))] (.exact rfl))

theorem opPixPack8_follows :
    Follows (readSet .pixPack8 s) (Moved (Fills .pixPack8 s) s s') s s' (opPixPack8 s) (opPixPack8 s') := by
  unfold opPixPack8
  exact .read pixels_injective fun wimg _ => .done (.writes [.buf (.pk (wimg.map packArgb8))] (.exact rfl))

theorem opClsCount_follows (hc : s.cfg = s'.cfg) :
    Follows (readSet .clsCount s) (Moved (Fills .clsCount s) s s') s s' (opClsCount s) (opClsCount s') := by
  unfold opClsCount
  rw [hc]
  exact .read bytes_injective fun pk _ => .done (.writes
    [.buf (.pal (orderPalette s'.cfg pk (countColors [] pk).1)), .tooMany (countColors [] pk).2] (.exact rfl))

theorem opClsFmt_follows (hc : s.cfg = s'.cfg) (hm : s.tooMany = s'.tooMany) :
    Follows (readSet .clsFmt s) (Moved (Fills .clsFmt s) s s') s s' (opClsFmt s) (opClsFmt s') := by
  unfold opClsFmt
  rw [hc, hm]
  refine .read word_injective fun var _ => .read bytes_injective fun pal _ => .read word_injective fun w _ =>
    .done (.step _ fun _ _ => .step _ fun _ _ => .step _ fun f _ => ?_)
  by_cases hf : 1 ≤ f
  · simp only [if_pos hf]
    exact .writes [.reg (.fmt (BitVec.ofNat 8 f)), .reg (.pw (BitVec.ofNat 9 (paddedWidth f w.toNat))),
      .reg (.vn (BitVec.ofNat 4 (valueWidth f)))] (.exact rfl)
  · obtain rfl : f = 0 := by omega
    exact .writes [.reg (.fmt 0), .reg (.pw (BitVec.ofNat 9 (paddedWidth 0 w.toNat)))]
      (.exceptVn (ls := [.place (.reg .fmt), .place (.reg .pw)]) rfl (by decide) (by decide) rfl)

theorem opGenMono_follows (hc : s.cfg = s'.cfg) :
    Follows (readSet .genMono s) (Moved (Fills .genMono s) s s') s s' (opGenMono s) (opGenMono s') := by
  unfold opGenMono
  rw [hc]
  exact .read bytes_injective fun pk _ => .read word_injective fun w _ => .read word_injective fun h _ =>
    .read word_injective fun pw _ => .read word_injective fun fmt _ => .done (.step _ fun _ _ => .step _ fun _ _ =>
    .step _ fun _ _ => .writes [.buf (.str (mapRows w.toNat
      (padRow w.toNat pw.toNat (fun c => (monoOf s'.cfg c).getD 0)) h.toNat pk))] (.exact rfl))

theorem opGenVal_follows :
    Follows (readSet .genVal s) (Moved (Fills .genVal s) s s') s s' (opGenVal s) (opGenVal s') := by
  unfold opGenVal
  refine .read bytes_injective fun pk _ => .read word_injective fun fmt hfmt => .read word_injective fun w _ =>
    .read word_injective fun h _ => .read word_injective fun pw _ => ?_
  exact .readIf bytes_injective (by rw [hfmt]; exact (List.append_nil _).symm) fun pal =>
    .done (.step _ fun _ _ => .step _ fun _ _ => .step _ fun _ _ => .writes
    [.buf (.str (mapRows w.toNat (padRow w.toNat pw.toNat
      (fun c => if fmt.toNat = 1 then c else indexByte (paletteIndex pal c))) h.toNat pk))] (.exact rfl))

theorem opGenUnscr_follows :
    Follows (readSet .genUnscr s) (Moved (Fills .genUnscr s) s s') s s' (opGenUnscr s) (opGenUnscr s') := by
  unfold opGenUnscr
  exact .read bytes_injective fun str _ => .read word_injective fun pw _ => .read word_injective fun h _ =>
    .done (.step _ fun _ _ => .step _ fun _ _ => .writes [.buf (.str (unscreen pw.toNat str))] (.exact rfl))

theorem opRleBin_follows :
    Follows (readSet .rleBin s) (Moved (Fills .rleBin s) s s') s s' (opRleBin s) (opRleBin s') := by
  unfold opRleBin
  exact .read bytes_injective fun str _ => .done (.step _ fun _ _ =>
    .writes [.buf (.run (runsBinary str))] (.exact rfl))

theorem opRleMv_follows :
    Follows (readSet .rleMv s) (Moved (Fills .rleMv s) s s') s s' (opRleMv s) (opRleMv s') := by
  unfold opRleMv
  exact .read bytes_injective fun str _ => .done (.writes
    [.buf (.run (runsMulti str).2), .buf (.vals (runsMulti str).1)] (.exact rfl))

theorem opRlxBin_follows :
    Follows (readSet .rlxBin s) (Moved (Fills .rlxBin s) s s') s s' (opRlxBin s) (opRlxBin s') := by
  unfold opRlxBin
  exact .read numbers_injective fun run _ => .read word_injective fun pw _ => .read word_injective fun h _ =>
    .done (.step _ fun _ _ => .step _ fun _ _ => .step _ fun _ _ =>
      .writes [.buf (.str ((expandBinary 0 run).drop 1))] (.exact rfl))

theorem opRlxMv_follows :
    Follows (readSet .rlxMv s) (Moved (Fills .rlxMv s) s s') s s' (opRlxMv s) (opRlxMv s') := by
  unfold opRlxMv
  exact .read numbers_injective fun run _ => .read bytes_injective fun vals _ => .read word_injective fun pw _ =>
    .read word_injective fun h _ => .done (.step _ fun _ _ => .step _ fun _ _ => .step _ fun _ _ => .step _ fun _ _ =>
      .writes [.buf (.str (expandMulti vals run))] (.exact rfl))

theorem opCntSearch_follows (hc : s.cfg = s'.cfg) :
    Follows (readSet .cntSearch s) (Moved (Fills .cntSearch s) s s') s s' (opCntSearch s) (opCntSearch s') := by
  unfold opCntSearch readSet
  rw [hc]
  refine .read word_injective fun fmt hfmt => .read numbers_injective fun run _ => ?_
  refine .readIf (p := .buf .str) bytes_injective ?_ fun str => .readIf (p := .reg .pw) word_injective rfl fun pw =>
    .readIf (p := .reg .h) word_injective rfl fun h => .done (.step _ fun _ _ =>
    .step _ fun _ _ => .step _ fun _ _ => .step _ fun _ _ => .step _ fun best _ => .writes
      [.reg (.n (BitVec.ofNat 7 best.n)), .reg (.us best.us), .buf (.rleb best.bytes)] (.exact rfl))
  rw [hfmt]
  by_cases hs : screened s'.cfg fmt.toNat
  · simp only [if_pos hs]
    rfl
  · simp only [if_neg hs]
    rfl

theorem opCntAsm_follows (hc : s.cfg = s'.cfg) :
    Follows (readSet .cntAsm s) (Moved (Fills .cntAsm s) s s') s s' (opCntAsm s) (opCntAsm s') := by
  unfold opCntAsm
  rw [hc]
  refine .read word_injective fun w _ => .read word_injective fun h _ => .read word_injective fun n _ =>
    .read word_injective fun us _ => .read word_injective fun fmt hfmt => .read bytes_injective fun rleb _ => ?_
  rw [hfmt]
  exact .readIf bytes_injective rfl fun vb => .readIf bytes_injective (List.append_nil _).symm fun pb =>
    .done (.step _ fun _ _ => .step _ fun _ _ => .step _ fun _ _ => .step _ fun _ _ => .step _ fun _ _ =>
    .step _ fun _ _ => .writes
      [.buf (.buf (headerBytes w.toNat h.toNat n.toNat us.toNat fmt.toNat (8 + rleb.length)
        (8 + rleb.length + vb.length) ++ rleb ++ vb ++ pb)),
      .reg (.f4 (BitVec.ofNat 16 (8 + rleb.length))), .reg (.f6 (BitVec.ofNat 16 (8 + rleb.length + vb.length)))]
      (.exact rfl))

/-- The writes of `CNT.PARSE` in the order of its write set (44_decoder_pipeline.md R261), `vn` those of `VN`. -/
def parseWrites (buf : List Byte) (vn : List Write) : List Write :=
  [.reg (.w (BitVec.ofNat 8 (memRead1 buf 0))), .reg (.h (BitVec.ofNat 8 (memRead1 buf 1))),
    .reg (.n (BitVec.ofNat 7 (memRead1 buf 2 % 128))), .reg (.us (BitVec.ofNat 1 (memRead1 buf 2 / 128))),
    .reg (.fmt (BitVec.ofNat 8 (memRead1 buf 3))), .reg (.f4 (BitVec.ofNat 16 (memRead2 buf 4))),
    .reg (.f6 (BitVec.ofNat 16 (memRead2 buf 6))),
    .reg (.pw (BitVec.ofNat 9 (paddedWidth (memRead1 buf 3) (memRead1 buf 0))))] ++ vn ++
  [.buf (.pal (buf.drop (memRead2 buf 6))), .reg (.rb 8), .reg (.re (BitVec.ofNat 17 (memRead2 buf 4))),
    .reg (.si 8), .reg (.bi 0), .eos false]

theorem opCntParse_follows (hc : s.cfg = s'.cfg) :
    Follows (readSet .cntParse s) (Moved (Fills .cntParse s) s s') s s' (opCntParse s) (opCntParse s') := by
  unfold opCntParse
  rw [hc]
  refine .read bytes_injective fun buf _ => .done (.step _ fun _ _ => .step _ fun _ _ => .step _ fun _ _ =>
    .step _ fun _ _ => .step _ fun _ _ => .step _ fun _ _ => .step _ fun _ _ => .step _ fun _ _ =>
    .step _ fun _ _ => ?_)
  by_cases hf : 1 ≤ memRead1 buf 3
  · simp only [if_pos hf]
    exact .writes (parseWrites buf [.reg (.vn (BitVec.ofNat 4 (valueWidth (memRead1 buf 3))))]) (.exact rfl)
  · simp only [if_neg hf]
    refine .writes (parseWrites buf []) (.exceptVn (ls := (writeLocs .cntParse).filter (· ≠ .place (.reg .vn))) rfl
      (by decide) (by decide) ?_)
    exact congrArg (fun f => Slot.put (BitVec.ofNat 8 f)) (show memRead1 buf 3 = 0 by omega)

theorem opPixRescr_follows :
    Follows (readSet .pixRescr s) (Moved (Fills .pixRescr s) s s') s s' (opPixRescr s) (opPixRescr s') := by
  unfold opPixRescr
  exact .read bytes_injective fun str _ => .read word_injective fun pw _ => .read word_injective fun h _ =>
    .done (.step _ fun _ _ => .step _ fun _ _ => .step _ fun _ _ =>
      .writes [.buf (.str (rescreen pw.toNat str))] (.exact rfl))

theorem opPalExpand_follows :
    Follows (readSet .palExpand s) (Moved (Fills .palExpand s) s s') s s' (opPalExpand s) (opPalExpand s') := by
  unfold opPalExpand
  refine .read bytes_injective fun str _ => .read word_injective fun fmt hfmt => .read word_injective fun pw _ =>
    .read word_injective fun h _ => ?_
  exact .readIf bytes_injective (by rw [hfmt]; exact (List.append_nil _).symm) fun pal =>
    .done (.step _ fun _ _ => .step _ fun _ _ => .step _ fun _ _ =>
    .step _ fun _ _ => .step _ fun _ _ => .writes [.buf (.pimg (str.map (expandPixel fmt.toNat pal)))] (.exact rfl))

theorem opPixCrop_follows :
    Follows (readSet .pixCrop s) (Moved (Fills .pixCrop s) s s') s s' (opPixCrop s) (opPixCrop s') := by
  unfold opPixCrop
  exact .read pixels_injective fun pimg _ => .read word_injective fun w _ => .read word_injective fun h _ =>
    .read word_injective fun pw _ => .done (.step _ fun _ _ => .step _ fun _ _ => .writes
      [.buf (.img (mapRows pw.toNat (fun row => row.take w.toNat) h.toNat pimg))] (.exact rfl))

end

end Sys2Proof.Machine
end

section
/-! SUPPORT. `ENCODE` and `DECODE`, two runs side by side: each step reads only what the composite reads (10_state.md
R33) or what an earlier step has written. -/

namespace Sys2Proof.Machine

open HostValue

/-- The operations that are not made of others; `SYS.RESET` has no operands and no checks. -/
abbrev isBasic (i : Instr) : Prop := i ∉ ([.sysReset, .encodeImage, .decodeImage] : List Instr)

/-- Two runs of one basic operation: it reads its read set and fills its write set. -/
theorem opBody_follows_fills {s s' : State} {j : Instr} (hj : isBasic j) (hc : s.cfg = s'.cfg)
    (hm : j = .clsFmt → s.tooMany = s'.tooMany) :
    Follows (readSet j s) (Moved (Fills j s) s s') s s' (opBody j s) (opBody j s') := by
  cases j with
  | sysReset => exact absurd hj (by decide)
  | vwiEnc => exact opVwiEnc_follows
  | vwiDec => exact opVwiDec_follows hc
  | chkPack => exact opChkPack_follows
  | chkGet => exact opChkGet_follows
  | seqPack => exact opSeqPack_follows
  | seqUnpack => exact opSeqUnpack_follows hc
  | fixPack => exact opFixPack_follows
  | fixUnpack => exact opFixUnpack_follows
  | curSet => exact opCurSet_follows
  | pixClean => exact opPixClean_follows
  | pixQuant => exact opPixQuant_follows hc
  | pixPack8 => exact opPixPack8_follows
  | clsCount => exact opClsCount_follows hc
  | clsFmt => exact opClsFmt_follows hc (hm rfl)
  | genMono => exact opGenMono_follows hc
  | genVal => exact opGenVal_follows
  | genUnscr => exact opGenUnscr_follows
  | rleBin => exact opRleBin_follows
  | rleMv => exact opRleMv_follows
  | rlxBin => exact opRlxBin_follows
  | rlxMv => exact opRlxMv_follows
  | cntSearch => exact opCntSearch_follows hc
  | cntAsm => exact opCntAsm_follows hc
  | encodeImage => exact absurd hj (by decide)
  | cntParse => exact opCntParse_follows hc
  | pixRescr => exact opPixRescr_follows
  | palExpand => exact opPalExpand_follows
  | pixCrop => exact opPixCrop_follows
  | decodeImage => exact absurd hj (by decide)

/-- The read set with every conditional part in it (10_state.md R33). -/
def mayRead (i : Instr) : List Place :=
  match i with
  | .genVal => [.buf .pk, .reg .fmt, .reg .w, .reg .h, .reg .pw, .buf .pal]
  | .cntSearch => [.reg .fmt, .buf .run, .buf .str, .reg .pw, .reg .h]
  | .cntAsm => [.reg .w, .reg .h, .reg .n, .reg .us, .reg .fmt, .buf .rleb, .buf .valb, .buf .pal]
  | .palExpand => [.buf .str, .reg .fmt, .reg .pw, .reg .h, .buf .pal]
  | i => readSet i State.reset

theorem mem_mayRead_of_mem_readSet {i : Instr} {s : State} {p : Place} (h : p ∈ readSet i s) : p ∈ mayRead i := by
  cases i with
  | genVal | cntSearch | cntAsm | palExpand =>
    simp only [readSet, List.mem_append, List.mem_ite_nil_right, List.mem_cons] at h
    simp only [mayRead, List.mem_cons]
    tauto
  | _ => exact h

/-- The writes are in the write set of `i`. -/
def Within (i : Instr) (ws : List Write) : Prop := ∀ w ∈ ws, w.loc ∈ writeLocs i

/-- Two runs of the operation `i`, from `s` and `s'`, that have come to `t` and `t'`: by the same writes so far, and
with the same to be read in the locations `ls`. -/
structure Along (i : Instr) (ls : List Loc) (s s' t t' : State) : Prop where
  cfg : t.cfg = t'.cfg
  moved : Moved (Within i) s s' t t'
  agree : ∀ l ∈ ls, (t.loc l).read = (t'.loc l).read

/-- What holds after the step `j` of `i` from `t` has come to `u` and, in the other run, to `u'`. -/
structure Stepped (j i : Instr) (ls : List Loc) (s s' t u u' : State) : Prop where
  along : Along i (ls ++ (writeLocs j).filter (fun l => l ≠ .place (.reg .vn))) s s' u u'
  alongVn : u.regs.fmt ≠ .put 0 → Along i (ls ++ writeLocs j) s s' u u'
  frame : ∀ l, l ∉ writeLocs j → u.loc l = t.loc l

section

variable {i j : Instr} {ls ms : List Loc} {s s' t t' : State}

theorem Along.start {ps : List Place} (hc : s.cfg = s'.cfg) (h : ∀ p ∈ ps, (s.place p).read = (s'.place p).read) :
    Along i (ps.map .place) s s' s s' where
  cfg := hc
  moved := ⟨[], fun _ hw => absurd hw List.not_mem_nil, rfl, rfl⟩
  agree l hl := by
    obtain ⟨p, hp, rfl⟩ := List.mem_map.mp hl
    exact h p hp

theorem Along.mono (h : Along i ls s s' t t') (hm : ∀ l ∈ ms, l ∈ ls) : Along i ms s s' t t' :=
  ⟨h.cfg, h.moved, fun l hl => h.agree l (hm l hl)⟩

theorem Along.write (h : Along i ls s s' t t') {ws : List Write} (hws : ws.map Write.loc = ms) (hw : Within i ws) :
    Along i (ls ++ ms) s s' (applyWrites ws t) (applyWrites ws t') where
  cfg := by rw [applyWrites_cfg, applyWrites_cfg, h.cfg]
  moved := by
    obtain ⟨vs, hv, rfl, rfl⟩ := h.moved
    exact ⟨vs ++ ws, List.forall_mem_append.mpr ⟨hv, hw⟩, (applyWrites_append ..).symm, (applyWrites_append ..).symm⟩
  agree l hl := by
    subst hws
    by_cases hlw : l ∈ ws.map Write.loc
    · rw [loc_applyWrites_of_mem hlw t t']
    · rw [loc_applyWrites_of_notMem hlw, loc_applyWrites_of_notMem hlw]
      exact h.agree l ((List.mem_append.mp hl).resolve_right hlw)

/-- A step that reads only locations where the two runs agree makes the same writes in both. -/
theorem Along.step (h : Along i ls s s' t t') (j : Instr) (hr : ∀ p ∈ readSet j t, .place p ∈ ls)
    (hj : isBasic j) (hm : j = .clsFmt → .tooMany ∈ ls) (hw : ∀ l ∈ writeLocs j, l ∈ writeLocs i) :
    Both (Stepped j i ls s s' t) (opBody j t) (opBody j t') := by
  have htm : j = .clsFmt → t.tooMany = t'.tooMany := fun hcls => by
    exact flag_injective (Except.ok.inj (h.agree .tooMany (hm hcls)))
  refine ((opBody_follows_fills hj h.cfg htm).both fun p hp => h.agree _ (hr p hp)).mono ?_
  rintro u u' ⟨ws, hws, rfl, rfl⟩
  have hall : Along i (ls ++ ws.map Write.loc) s s' (applyWrites ws t) (applyWrites ws t') :=
    h.write rfl fun w hm => hw _ (hws.within w hm)
  refine ⟨hall.mono fun l hl => ?_, fun hfmt => hall.mono fun l hl => ?_, fun l hl => ?_⟩
  · rcases List.mem_append.mp hl with hl | hl
    · exact List.mem_append_left _ hl
    · obtain ⟨hl, hvn⟩ := List.mem_filter.mp hl
      exact List.mem_append_right _ ((hws.covers l hl).resolve_right fun ⟨hl, _⟩ => of_decide_eq_true hvn hl)
  · rcases List.mem_append.mp hl with hl | hl
    · exact List.mem_append_left _ hl
    · exact List.mem_append_right _ ((hws.covers l hl).resolve_right fun ⟨_, h0⟩ => hfmt h0)
  · refine loc_applyWrites_of_notMem (fun hmem => hl ?_) t
    obtain ⟨w, hwm, rfl⟩ := List.mem_map.mp hmem
    exact hws.within w hwm

/-- A step all of whose possible operands are among the locations where the two runs agree. -/
theorem Along.stepAlways (h : Along i ls s s' t t') (j : Instr) (hr : ∀ p ∈ mayRead j, .place p ∈ ls := by decide)
    (hj : isBasic j := by decide) (hm : j = .clsFmt → .tooMany ∈ ls := by decide)
    (hw : ∀ l ∈ writeLocs j, l ∈ writeLocs i := by decide) : Both (Stepped j i ls s s' t) (opBody j t) (opBody j t') :=
  h.step j (fun p hp => hr p (mem_mayRead_of_mem_readSet hp)) hj hm hw

/-- An operand that a composite reads between its steps. -/
theorem Along.read {α : Type} {v : α → HostValue} {p : Place} {x y : Slot α} (h : Along i ls s s' t t')
    (hv : Function.Injective v) (hp : .place p ∈ ls) (hx : t.place p = x.map v) (hy : t'.place p = y.map v) :
    x.read = y.read := by
  refine Slot.read_eq_of_map hv ?_
  rw [← hx, ← hy]
  exact h.agree _ hp

/-- A step that does not write `FMT` leaves it. -/
theorem Stepped.fmt {u u' : State} (h : Stepped j i ls s s' t u u') (hj : .place (.reg .fmt) ∉ writeLocs j) :
    u.regs.fmt = t.regs.fmt :=
  Slot.map_injective word_injective (h.frame _ hj)

end

section Encode

variable {s s' t t' : State}

/-- What the steps of `ENCODE` after the choice of the format may read of the steps before. -/
def encodeFrontLocs : List Loc :=
  [.buf .pk, .buf .pal, .reg .w, .reg .h, .reg .pw, .reg .fmt].map .place

theorem encodeFront_both (h : Along .encodeImage ([.buf .img, .reg .w, .reg .h, .reg .var].map .place) s s' t t') :
    Both (fun u u' => Along .encodeImage encodeFrontLocs s s' u u' ∧
        (u.regs.fmt ≠ .put 0 → Along .encodeImage (.place (.reg .vn) :: encodeFrontLocs) s s' u u'))
      (encodeFront t) (encodeFront t') :=
  (h.stepAlways .pixClean).bind fun _ _ h1 => (h1.along.stepAlways .pixQuant).bind fun _ _ h2 =>
    (h2.along.stepAlways .pixPack8).bind fun _ _ h3 => (h3.along.stepAlways .clsCount).bind fun _ _ h4 =>
    (h4.along.stepAlways .clsFmt).mono fun _ _ h5 =>
      ⟨h5.along.mono (by decide), fun hfmt => (h5.alongVn hfmt).mono (by decide)⟩

theorem encodeMono_both (h : Along .encodeImage encodeFrontLocs s s' t t') (hfmt : t.regs.fmt = .put 0) :
    Both (Moved (Within .encodeImage) s s') (encodeMono t) (encodeMono t') := by
  refine (h.stepAlways .genMono).bind fun t1 _ h1 => (h1.along.stepAlways .rleBin).bind fun t2 _ h2 =>
    (h2.along.stepAlways .cntSearch).bind fun t3 _ h3 => ?_
  have hfmt3 : t3.regs.fmt = .put 0 := by
    rw [h3.fmt (by decide), h2.fmt (by decide), h1.fmt (by decide), hfmt]
  have hreads : readSet .cntAsm t3 = [.reg .w, .reg .h, .reg .n, .reg .us, .reg .fmt, .buf .rleb] := by
    unfold readSet
    rw [hfmt3]
    rfl
  exact (h3.along.step .cntAsm (by rw [hreads]; decide) (by decide) (by decide) (by decide)).mono
    fun _ _ h4 => h4.along.moved

theorem encodeValues_both (h : Along .encodeImage (.place (.reg .vn) :: encodeFrontLocs) s s' t t') :
    Both (Moved (Within .encodeImage) s s') (encodeValues t) (encodeValues t') :=
  (h.stepAlways .genVal).bind fun _ _ h1 => (h1.along.stepAlways .rleMv).bind fun _ _ h2 =>
    (h2.along.stepAlways .cntSearch).bind fun _ _ h3 => (h3.along.stepAlways .fixPack).bind fun _ _ h4 =>
    (h4.along.stepAlways .cntAsm).mono fun _ _ h5 => h5.along.moved

theorem opEncodeImage_follows_of_agree (hc : s.cfg = s'.cfg)
    (hread : ∀ p ∈ readSet .encodeImage s, (s.place p).read = (s'.place p).read) :
    Follows (readSet .encodeImage s) (Moved (Within .encodeImage) s s') s s' (opEncodeImage s) (opEncodeImage s') := by
  unfold opEncodeImage
  refine .read pixels_injective fun img _ => .read word_injective fun w _ => .read word_injective fun h _ =>
    .read word_injective fun var _ => .done (.step _ fun _ _ => .step _ fun _ _ => ?_)
  refine (encodeFront_both (.start hc hread)).bind fun t t' ht => ?_
  obtain ⟨hfront, hvn⟩ := ht
  rw [← hfront.read (p := .reg .fmt) word_injective (by decide) rfl rfl]
  refine .step _ fun fmt hfmt => ?_
  rw [Slot.read_eq_ok] at hfmt
  unfold encodeBack
  by_cases h0 : fmt = 0
  · rw [if_pos h0, if_pos h0]
    exact encodeMono_both hfront (h0 ▸ hfmt)
  · rw [if_neg h0, if_neg h0]
    exact encodeValues_both (hvn (by simpa [hfmt] using h0))

theorem opEncodeImage_follows (hc : s.cfg = s'.cfg) :
    Follows (readSet .encodeImage s) (Moved (Within .encodeImage) s s') s s' (opEncodeImage s) (opEncodeImage s') where
  invalid := (opEncodeImage_follows_of_agree (s' := s) rfl fun _ _ => rfl).invalid
  both h := (opEncodeImage_follows_of_agree hc h).both h

end Encode

section Decode

variable {s s' t t' : State}

/-- What the steps of `DECODE` after the run lengths may read of the steps before, besides `VN`. -/
def decodeFrontLocs : List Loc :=
  [.buf .buf, .buf .pal, .buf .run, .reg .w, .reg .h, .reg .pw, .reg .fmt, .reg .us, .reg .f4, .reg .f6].map .place

/-- What the last two steps of `DECODE` may read of the steps before. -/
def decodeStreamLocs : List Loc :=
  [.buf .str, .buf .pal, .reg .w, .reg .h, .reg .pw, .reg .fmt].map .place

theorem decodeMono_both (h : Along .decodeImage decodeFrontLocs s s' t t') :
    Both (Along .decodeImage decodeStreamLocs s s') (decodeMono t) (decodeMono t') := by
  unfold decodeMono
  rw [← h.read (p := .reg .us) word_injective (by decide) rfl rfl]
  refine .step _ fun us _ => (h.stepAlways .rlxBin).bind fun t1 t1' h1 => ?_
  rw [h1.along.cfg]
  by_cases hus : us = 1 ∧ t1'.cfg.unscreen = .symmetric
  · rw [if_pos hus, if_pos hus]
    exact (h1.along.stepAlways .pixRescr).mono fun _ _ h2 => h2.along.mono (by decide)
  · rw [if_neg hus, if_neg hus]
    exact .ok (h1.along.mono (by decide))

theorem decodeValues_both (h : Along .decodeImage (.place (.reg .vn) :: decodeFrontLocs) s s' t t') :
    Both (Along .decodeImage decodeStreamLocs s s') (decodeValues t) (decodeValues t') := by
  unfold decodeValues
  rw [← h.read (p := .reg .f4) word_injective (by decide) rfl rfl,
    ← h.read (p := .reg .f6) word_injective (by decide) rfl rfl]
  refine .step _ fun f4 _ => .step _ fun f6 _ => ?_
  have hwindow : Within .decodeImage [.reg (.rb (f4.setWidth 17)), .reg (.re (f6.setWidth 17))] := by
    simp [Within, Write.loc, RegWrite.name, writeLocs, writeSet]
  exact ((h.write (ms := [.reg .rb, .reg .re].map .place) rfl hwindow).stepAlways .fixUnpack).bind
    fun _ _ h1 => (h1.along.stepAlways .rlxMv).mono fun _ _ h2 => h2.along.mono (by decide)

theorem decodeBack_both (h : Along .decodeImage decodeStreamLocs s s' t t') :
    Both (Moved (Within .decodeImage) s s') (opPalExpand t >>= opPixCrop) (opPalExpand t' >>= opPixCrop) :=
  (h.stepAlways .palExpand).bind fun _ _ h1 => (h1.along.stepAlways .pixCrop).mono fun _ _ h2 => h2.along.moved

theorem opDecodeImage_both (hc : s.cfg = s'.cfg)
    (h : ∀ p ∈ readSet .decodeImage s, (s.place p).read = (s'.place p).read) :
    Both (Moved (Within .decodeImage) s s') (opDecodeImage s) (opDecodeImage s') := by
  have hstart : Along .decodeImage [.place (.buf .buf)] s s' s s' := .start (ps := [.buf .buf]) hc h
  unfold opDecodeImage
  refine (hstart.stepAlways .cntParse).bind fun t t' ht => ?_
  rw [← ht.along.read (p := .reg .fmt) word_injective (by decide) rfl rfl,
    ← ht.along.read (p := .reg .us) word_injective (by decide) rfl rfl, ht.along.cfg]
  refine .step _ fun fmt hfmt => .step _ fun us _ => .step _ fun _ _ => ?_
  rw [Slot.read_eq_ok] at hfmt
  unfold decodeStream
  by_cases h0 : fmt = 0
  · simp only [if_pos h0]
    exact (ht.along.stepAlways .seqUnpack).bind fun _ _ h1 =>
      (decodeMono_both (h1.along.mono (by decide))).bind fun _ _ => decodeBack_both
  · simp only [if_neg h0]
    exact ((ht.alongVn (by simpa [hfmt] using h0)).stepAlways .seqUnpack).bind fun _ _ h1 =>
      (decodeValues_both (h1.along.mono (by decide))).bind fun _ _ => decodeBack_both

theorem opDecodeImage_follows (hc : s.cfg = s'.cfg) :
    Follows (readSet .decodeImage s) (Moved (Within .decodeImage) s s') s s' (opDecodeImage s) (opDecodeImage s') where
  invalid p hp hval := by
    have hparse : opCntParse s = .error .operandInvalid := (opCntParse_follows rfl).invalid p hp hval
    unfold opDecodeImage
    rw [hparse]
    rfl
  both := opDecodeImage_both hc

end Decode

end Sys2Proof.Machine
end

section
/-! SUPPORT. Every operation's run, its outcome as writes of its write set, and the state's invariant along every
move. -/

namespace Sys2Proof.Machine

open HostValue

section Outcome

variable {i : Instr} {s s' t : State}

/-- Two runs of one operation: it reads its read set and makes writes of its write set (10_state.md R33). -/
theorem opBody_follows (hi : i ≠ .sysReset) (hc : s.cfg = s'.cfg) (hm : i = .clsFmt → s.tooMany = s'.tooMany) :
    Follows (readSet i s) (Moved (Within i) s s') s s' (opBody i s) (opBody i s') := by
  by_cases hb : isBasic i
  · have hfollows := opBody_follows_fills hb hc hm
    refine ⟨hfollows.invalid, fun h => (hfollows.both h).mono ?_⟩
    rintro t t' ⟨ws, hws, ht, ht'⟩
    exact ⟨ws, hws.within, ht, ht'⟩
  · cases i with
    | sysReset => exact absurd rfl hi
    | encodeImage => exact opEncodeImage_follows hc
    | decodeImage => exact opDecodeImage_follows hc
    | _ => exact absurd (by decide) hb

/-- An operation that answers makes writes of its write set and changes nothing else. -/
theorem opBody_eq_ok (hi : i ≠ .sysReset) (h : opBody i s = .ok t) : ∃ ws, Within i ws ∧ t = applyWrites ws s := by
  have hboth := (opBody_follows (s := s) hi rfl fun _ => rfl).both fun _ _ => rfl
  rw [h] at hboth
  cases hboth with
  | ok hmoved =>
    obtain ⟨ws, hws, ht, -⟩ := hmoved
    exact ⟨ws, hws, ht⟩

/-- A location outside the write set is left as it was. -/
theorem loc_applyWrites_of_within {ws : List Write} {l : Loc} (hws : Within i ws) (hl : l ∉ writeLocs i) (s : State) :
    (applyWrites ws s).loc l = s.loc l := by
  refine loc_applyWrites_of_notMem (fun hmem => hl ?_) s
  obtain ⟨w, hw, rfl⟩ := List.mem_map.mp hmem
  exact hws w hw

/-- Everything a command but `SYS.RESET` can do: nothing, a fault, or writes of its write set. -/
theorem exec_eq_next (hi : i ≠ .sysReset) (h : exec i s = .next t) :
    t = s ∨ (∃ x, t = takeFault x (encode i) s) ∨ (opBody i s = .ok t ∧ ∃ ws, Within i ws ∧ t = applyWrites ws s) := by
  rw [exec_eq_runOp hi, runOp_eq_next] at h
  rcases h with ⟨-, ht⟩ | ⟨-, hok⟩ | ⟨-, x, -, ht⟩
  · exact .inl ht
  · exact .inr (.inr ⟨hok, opBody_eq_ok hi hok⟩)
  · exact .inr (.inl ⟨x, ht⟩)

/-- Taking a fault leaves every place and both flags (60_exceptions.md R304). -/
theorem loc_takeFault (x : FaultCode) (op : Byte) (s : State) (l : Loc) : (takeFault x op s).loc l = s.loc l := by
  cases l with
  | place p =>
    cases p with
    | reg r => exact State.place_reg_congr rfl r
    | buf b => exact State.place_buf_congr rfl b
  | eos => rfl
  | tooMany => rfl

end Outcome

section Invariant

variable {i : Instr} {s t : State}

theorem State.wf_iff (s : State) :
    s.wf = true ↔ s.cfg.wf = true ∧ s.regs.wf = true ∧ s.mem.wf = true ∧ fitsVBits s.cfg s.regs.v.val = true := by
  simp only [State.wf, Bool.and_eq_true, and_assoc]

/-- A finite `VBITS` is at least 16 (92_eei_decisions.md D10), so every 16 bit value fits. -/
theorem fitsVBits_of_lt {c : Config} (hc : c.wf = true) {v : Nat} (hv : v < 2 ^ 16) : fitsVBits c v = true := by
  have hok : c.vbitsOk = true := by
    simp only [Config.wf, Bool.and_eq_true] at hc
    obtain ⟨⟨hok, -⟩, -⟩ := hc
    exact hok
  unfold fitsVBits
  unfold Config.vbitsOk at hok
  cases hb : c.vbits with
  | none => rfl
  | some b =>
    rw [hb] at hok
    have h16 : 16 ≤ b := of_decide_eq_true hok
    exact decide_eq_true (hv.trans_le (Nat.pow_le_pow_right (by decide) h16))

theorem group_lt (B : List Byte) (p n : Nat) : group B p n < 2 ^ n := Nat.mod_lt _ (Nat.two_pow_pos n)

/-- A group is at most 8 bits wide. -/
theorem fitsVBits_group {c : Config} (hc : c.wf = true) {n : Nat} (hn : isChunkWidth n) (B : List Byte) (p : Nat) :
    fitsVBits c (group B p n) = true := by
  have hle : n ≤ 16 := by omega
  exact fitsVBits_of_lt hc ((group_lt B p n).trans_le (Nat.pow_le_pow_right (by decide) hle))

theorem opVwiDec_fits (hc : s.cfg.wf = true) (h : opVwiDec s = .ok t) : fitsVBits s.cfg t.regs.v.val = true := by
  obtain ⟨buf, re, si, bi, n, -, -, -, -, -, -, -, -, -, ⟨v, p, -, hv, rfl⟩ | ⟨p, -, rfl⟩⟩ := opVwiDec_eq_ok.mp h
  · exact hv
  · exact fitsVBits_of_lt hc (v := 0) (by decide)

theorem opChkGet_fits (hc : s.cfg.wf = true) (h : opChkGet s = .ok t) : fitsVBits s.cfg t.regs.v.val = true := by
  obtain ⟨buf, re, si, bi, n, -, -, -, -, -, hn, -, -, -, rfl⟩ := opChkGet_eq_ok.mp h
  by_cases hend : si = re
  · rw [if_pos hend]
    exact fitsVBits_of_lt hc (v := 0) (by decide)
  · rw [if_neg hend]
    split <;> exact fitsVBits_group hc hn _ _

/-- Every operation keeps `V` within `VBITS`: only `VWI.DEC`, which checks it, and `CHK.GET`, whose value is a group,
write `V`. -/
theorem opBody_fits (hi : i ≠ .sysReset) (hc : s.cfg.wf = true) (hv : fitsVBits s.cfg s.regs.v.val = true)
    (h : opBody i s = .ok t) : fitsVBits s.cfg t.regs.v.val = true := by
  by_cases hw : .place (.reg .v) ∈ writeLocs i
  · cases i with
    | sysReset => exact absurd rfl hi
    | vwiDec => exact opVwiDec_fits hc h
    | chkGet => exact opChkGet_fits hc h
    | _ => exact absurd hw (by decide)
  · obtain ⟨ws, hws, rfl⟩ := opBody_eq_ok hi h
    have hkeep : (applyWrites ws s).regs.v = s.regs.v :=
      Slot.map_injective number_injective (loc_applyWrites_of_within hws hw s)
    rw [hkeep]
    exact hv

/-- Every command keeps the invariant and the parameters. -/
theorem exec_keeps_wf (hwf : s.wf = true) (h : exec i s = .next t) : t.wf = true ∧ t.cfg = s.cfg := by
  obtain ⟨hc, hregs, hmem, hv⟩ := s.wf_iff.mp hwf
  by_cases hi : i = .sysReset
  · subst hi
    cases h
    have hv0 : fitsVBits s.cfg 0 = true := fitsVBits_of_lt hc (by decide)
    exact ⟨(State.wf_iff _).mpr ⟨hc, resetBlock_regs_wf s, resetBlock_mem_wf s, hv0⟩, rfl⟩
  · rcases exec_eq_next hi h with rfl | ⟨x, rfl⟩ | ⟨hok, ws, hws, rfl⟩
    · exact ⟨hwf, rfl⟩
    · exact ⟨hwf, rfl⟩
    · have hcfg : (applyWrites ws s).cfg = s.cfg := applyWrites_cfg ws s
      refine ⟨(State.wf_iff _).mpr ⟨?_, applyWrites_regs_wf ws hregs, applyWrites_mem_wf ws hmem, ?_⟩, hcfg⟩
      · rw [hcfg]
        exact hc
      · rw [hcfg]
        exact opBody_fits hi hc hv hok

/-- A write keeps the invariant where it leaves `V` within `VBITS`. -/
theorem Write.apply_wf (w : Write) (hwf : s.wf = true)
    (hv : (w.apply s).regs.v = s.regs.v ∨ fitsVBits s.cfg (w.apply s).regs.v.val = true) :
    (w.apply s).wf = true ∧ (w.apply s).cfg = s.cfg := by
  obtain ⟨hc, hregs, hmem, hfits⟩ := s.wf_iff.mp hwf
  obtain ⟨hcfg, -, -, -⟩ := w.apply_frame s
  refine ⟨(State.wf_iff _).mpr ⟨by rwa [hcfg], w.apply_regs_wf hregs, w.apply_mem_wf hmem, ?_⟩, hcfg⟩
  rw [hcfg]
  rcases hv with hv | hv
  · rwa [hv]
  · exact hv

/-- A host write of a register, where it answers, leaves `V` as it was or within `VBITS` (70_reset_and_hazards.md
R360). -/
theorem hostSet_eq_next {x : RegWrite} (h : hostSet x s = .next t) :
    t = s.setReg x ∧ (t.regs.v = s.regs.v ∨ fitsVBits s.cfg t.regs.v.val = true) := by
  cases x with
  | v x =>
    unfold hostSet at h
    by_cases hx : fitsVBits s.cfg x = true
    · simp only [if_pos hx] at h
      cases h
      exact ⟨rfl, .inr hx⟩
    · simp only [if_neg hx] at h
      cases h
  | _ =>
    cases h
    exact ⟨rfl, .inl rfl⟩

/-- A host write of one element, where it answers, leaves what a write of the whole buffer could leave. -/
theorem hostPoke_eq_next {x : ElemWrite} (h : hostPoke x s = .next t) : ∃ y : BufWrite, t = hostLoad y s := by
  cases x <;> obtain ⟨-, -, rfl⟩ := pokeSlot_eq_next.mp h
  case img => exact ⟨.img _, rfl⟩
  case wimg => exact ⟨.wimg _, rfl⟩
  case pk => exact ⟨.pk _, rfl⟩
  case pal => exact ⟨.pal _, rfl⟩
  case str => exact ⟨.str _, rfl⟩
  case run => exact ⟨.run _, rfl⟩
  case vals => exact ⟨.vals _, rfl⟩
  case sym => exact ⟨.sym _, rfl⟩
  case rleb => exact ⟨.rleb _, rfl⟩
  case valb => exact ⟨.valb _, rfl⟩
  case buf => exact ⟨.buf _, rfl⟩
  case pimg => exact ⟨.pimg _, rfl⟩

theorem hostLoad_keeps_wf (x : BufWrite) (hwf : s.wf = true) :
    (hostLoad x s).wf = true ∧ (hostLoad x s).cfg = s.cfg :=
  (Write.buf x).apply_wf hwf (.inl (congrArg Regs.v (hostLoad_regs s x)))

/-- Every move of the host and of the platform keeps the invariant and the parameters. -/
theorem makeMove_keeps_wf {m : HostMove} (hwf : s.wf = true) (h : makeMove m s = .next t) :
    t.wf = true ∧ t.cfg = s.cfg := by
  cases m with
  | cmd b =>
    change writeCmd b s = .next t at h
    cases hd : decode b with
    | ok i =>
      rw [writeCmd_of_decode hd] at h
      exact exec_keeps_wf hwf h
    | error e =>
      rw [writeCmd_of_illegal hd] at h
      cases h
      unfold illegalCommand
      split <;> exact ⟨hwf, rfl⟩
  | set x =>
    obtain ⟨rfl, hv⟩ := hostSet_eq_next h
    exact (Write.reg x).apply_wf hwf hv
  | load x =>
    cases h
    exact hostLoad_keeps_wf x hwf
  | poke x =>
    obtain ⟨y, rfl⟩ := hostPoke_eq_next h
    exact hostLoad_keeps_wf y hwf
  | read x =>
    obtain ⟨rfl, -⟩ := makeMove_read.mp h
    exact ⟨hwf, rfl⟩
  | resetEvent =>
    cases h
    exact exec_keeps_wf (i := .sysReset) hwf rfl

end Invariant

end Sys2Proof.Machine
end

section
/-! PROOFS. The statements about the state as a whole: reset, a step, the invariant, and what an operation reads and
writes (10_state.md). -/

namespace Sys2Proof.Proofs.StateFamily

open Sys2Proof Sys2Proof.Machine

/-- Settles O2: no place of the reset state holds a value. -/
theorem resetStateIsAsTheSpecSays : Obligations.ResetStateIsAsTheSpecSays := by
  refine ⟨fun p => ?_, rfl, rfl, rfl, rfl⟩
  cases p with
  | reg r => cases r <;> rfl
  | buf b => cases b <;> rfl

/-- Settles O3: a pending move is made on the state without it. -/
theorem stepRunsTheDecodedCommand : Obligations.StepRunsTheDecodedCommand := by
  refine ⟨fun s b i ms hhost hdecode _ => ?_, fun s => step_idle⟩
  calc step s = writeCmd b { s with host := ms } := step_move hhost
    _ = exec i { s with host := ms } := writeCmd_of_decode hdecode

/-- Settles O9: every operation reads its read set before it checks anything else. -/
theorem unreadableOperandRaisesOperandInvalid : Obligations.UnreadableOperandRaisesOperandInvalid := by
  intro i s p hfault hp hvalid
  have hi : i ≠ .sysReset := by
    rintro rfl
    exact absurd hp List.not_mem_nil
  have hbody : opBody i s = .error .operandInvalid :=
    (opBody_follows (s' := s) hi rfl fun _ => rfl).invalid p hp hvalid
  rw [exec_eq_runOp hi, runOp_error hfault hbody]
  rfl

/-- Settles O10: an operation does nothing, takes a fault, or makes writes of its write set. -/
theorem nothingOutsideTheWriteSetIsWritten : Obligations.NothingOutsideTheWriteSetIsWritten := by
  intro i s t hi h
  rcases exec_eq_next hi h with rfl | ⟨x, rfl⟩ | ⟨-, ws, hws, rfl⟩
  · exact ⟨fun _ _ => rfl, fun _ => rfl, fun _ => rfl, fun _ h => h, rfl, rfl⟩
  · have hplace (p : Place) : (takeFault x (encode i) s).place p = s.place p := loc_takeFault x (encode i) s (.place p)
    refine ⟨fun p _ => hplace p, fun _ => rfl, fun _ => rfl, fun p hp => ?_, rfl, rfl⟩
    rw [hplace]
    exact hp
  · refine ⟨fun p hp => loc_applyWrites_of_within (l := .place p) hws (by simpa [writeLocs] using hp) s, fun he => ?_,
      fun hm => ?_, fun p hp => loc_applyWrites_valid (l := .place p) ws hp, applyWrites_cfg ws s,
      applyWrites_host ws s⟩
    · exact State.eos_eq_of_loc (loc_applyWrites_of_within hws (by simp [writeLocs, he]) s)
    · exact State.tooMany_eq_of_loc (loc_applyWrites_of_within hws (by simp [writeLocs, hm]) s)

/-- Settles O11: the two runs take the same fault or make the same writes. -/
theorem resultDependsOnTheReadSetOnly : Obligations.ResultDependsOnTheReadSetOnly := by
  intro i s s' t t' hi hfault hfault' hcfg hmany hread h h'
  rw [exec_eq_runOp hi] at h h'
  have hboth := (opBody_follows hi hcfg hmany).both hread
  generalize hr : opBody i s = r at hboth
  generalize hr' : opBody i s' = r' at hboth
  cases hboth with
  | error x =>
    rw [runOp_error hfault hr] at h
    rw [runOp_error hfault' hr'] at h'
    cases h
    cases h'
    exact ⟨rfl, fun p _ => .inr ⟨loc_takeFault _ _ s (.place p), loc_takeFault _ _ s' (.place p)⟩, .inr ⟨rfl, rfl⟩,
      .inr ⟨rfl, rfl⟩⟩
  | ok hmoved =>
    obtain ⟨ws, -, rfl, rfl⟩ := hmoved
    rw [runOp_ok hfault hr] at h
    rw [runOp_ok hfault' hr'] at h'
    cases h
    cases h'
    have hloc (l : Loc) := loc_applyWrites_eq_or_kept ws l s s'
    refine ⟨by rw [applyWrites_fault, applyWrites_fault, hfault, hfault'], fun p _ => hloc (.place p), ?_, ?_⟩
    · exact (hloc .eos).imp State.eos_eq_of_loc (.imp State.eos_eq_of_loc State.eos_eq_of_loc)
    · exact (hloc .tooMany).imp State.tooMany_eq_of_loc (.imp State.tooMany_eq_of_loc State.tooMany_eq_of_loc)

/-- Settles O13: every move keeps the invariant, and taking it off the list does not touch what the invariant says. -/
theorem stateStaysWellFormed : Obligations.StateStaysWellFormed := by
  intro s t hwf h
  rcases step_eq_next.mp h with ⟨-, rfl⟩ | ⟨m, ms, -, hmove⟩
  · exact ⟨hwf, rfl⟩
  · exact makeMove_keeps_wf (s := { s with host := ms }) hwf hmove

/-- Settles O14: the default parameters are legal, and every place is in canonical form. -/
theorem resetStateHasTheInvariants : Obligations.ResetStateHasTheInvariants := by
  have hcfg : Config.default.wf = true := by decide
  exact ⟨(State.wf_iff _).mpr ⟨hcfg, Regs.reset_wf, Memory.reset_wf, rfl⟩, rfl⟩

end Sys2Proof.Proofs.StateFamily
end

section
/-! SUPPORT. The command table as a function both ways: `decode` and `encode` are inverse to each other, so the bytes
that are no command are those no operation encodes to, and there are 256 − 30 of them (30_encoding.md R91, R92). -/

namespace Sys2Proof

@[simp] theorem decode_encode (i : Instr) : decode (encode i) = .ok i := by
  cases i <;> rfl

theorem encode_of_decode_eq_ok {b : Byte} {i : Instr} (h : decode b = .ok i) : encode i = b := by
  unfold decode at h
  split at h <;> cases h <;> rfl

theorem decode_eq_ok_iff {b : Byte} {i : Instr} : decode b = .ok i ↔ encode i = b :=
  ⟨encode_of_decode_eq_ok, fun h => h ▸ decode_encode i⟩

/-- The decoder refuses a byte exactly where no operation has it as its code. -/
theorem exists_decode_eq_error_iff {b : Byte} : (∃ e, decode b = .error e) ↔ ∀ i, encode i ≠ b := by
  cases h : decode b with
  | ok i => simpa using ⟨i, decode_eq_ok_iff.mp h⟩
  | error e => simp [← decode_eq_ok_iff, h]

theorem encode_injective : Function.Injective encode := by
  intro i j h
  have hj : decode (encode i) = .ok j := decode_eq_ok_iff.mpr h.symm
  rw [decode_encode] at hj
  exact Except.ok.inj hj

theorem Instr.mem_all (i : Instr) : i ∈ Instr.all := by
  cases i <;> decide

theorem Instr.all_nodup : Instr.all.Nodup := by decide

/-- The codes of the operations as numbers, in the table's order. -/
def commandCodes : List Nat := Instr.all.map (fun i => (encode i).toNat)

theorem commandCodes_nodup : commandCodes.Nodup :=
  Instr.all_nodup.map (BitVec.toNat_injective.comp encode_injective)

theorem mem_commandCodes {n : Nat} : n ∈ commandCodes ↔ n < 256 ∧ ∃ i, encode i = BitVec.ofNat 8 n := by
  have hcode (i : Instr) : (encode i).toNat = n ↔ n < 256 ∧ encode i = BitVec.ofNat 8 n := by
    constructor
    · rintro rfl
      exact ⟨(encode i).isLt, by simp⟩
    · rintro ⟨hn, hi⟩
      rw [hi, BitVec.toNat_ofNat, Nat.mod_eq_of_lt hn]
  simp [commandCodes, Instr.mem_all, hcode]

/-- The number is the code of no operation. -/
def notCode (n : Nat) : Bool := decide (∀ i ∈ Instr.all, encode i ≠ BitVec.ofNat 8 n)

theorem notCode_eq_true_iff {n : Nat} : notCode n = true ↔ ∀ i, encode i ≠ BitVec.ofNat 8 n := by
  simp [notCode, Instr.mem_all]

/-- Of the 256 values of a byte, those that are a code are exactly the thirty codes. -/
theorem filter_code_perm : ((List.range 256).filter (fun n => !notCode n)).Perm commandCodes := by
  rw [List.perm_ext_iff_of_nodup (List.nodup_range.filter _) commandCodes_nodup]
  intro n
  have hcode : notCode n = false ↔ ∃ i, encode i = BitVec.ofNat 8 n := by
    rw [← Bool.not_eq_true, notCode_eq_true_iff]
    push Not
    rfl
  simp [mem_commandCodes, hcode]

/-- The values that are no code are those the thirty codes leave over (R92). -/
theorem length_filter_notCode : ((List.range 256).filter notCode).length = 226 := by
  have hsplit := List.length_eq_length_filter_add (l := List.range 256) notCode
  rw [filter_code_perm.length_eq, List.length_range] at hsplit
  have hthirty : commandCodes.length = 30 := rfl
  omega

end Sys2Proof

namespace Sys2Proof.Machine

/-- With no fault recorded, a byte that is no command is taken as a fault, the byte itself in `FOP` (R92, R304). -/
theorem step_illegalCommand {s : State} {b : Byte} {ms : List HostMove} (hfault : s.fault = 0)
    (hhost : s.host = .cmd b :: ms) (hb : ∀ i, encode i ≠ b) :
    step s = .next (takeFault .illegalCommand b { s with host := ms }) := by
  obtain ⟨e, hdecode⟩ := exists_decode_eq_error_iff.mpr hb
  calc step s = writeCmd b { s with host := ms } := step_move hhost
    _ = .next (illegalCommand b { s with host := ms }) := writeCmd_of_illegal hdecode
    _ = .next (takeFault .illegalCommand b { s with host := ms }) := by simp [illegalCommand, hfault]

end Sys2Proof.Machine

namespace Sys2Proof.Proofs.EncodingFamily

open Sys2Proof Sys2Proof.Machine

/-- Settles O4: the two directions of the equivalence between decoding to an operation and being its byte. -/
theorem decodeInvertsEncode : Obligations.DecodeInvertsEncode :=
  ⟨decode_encode, fun _ _ => encode_of_decode_eq_ok⟩

/-- Settles O5: each of the six bytes is the code of its operation. -/
theorem decodeOfWordsFromTheTable : Obligations.DecodeOfWordsFromTheTable :=
  ⟨decode_encode .sysReset, decode_encode .vwiDec, decode_encode .genVal, decode_encode .rlxBin,
    decode_encode .cntAsm, decode_encode .decodeImage⟩

/-- Settles O6: the decoder refuses the byte, and a command byte it refuses is taken as the fault 16. -/
theorem illegalCommandIsRecorded : Obligations.IllegalCommandIsRecorded :=
  ⟨fun _ _ _ => step_illegalCommand, length_filter_notCode, exists_decode_eq_error_iff.mp ⟨_, rfl⟩,
    exists_decode_eq_error_iff.mp ⟨_, rfl⟩⟩

end Sys2Proof.Proofs.EncodingFamily
end

section
/-! SUPPORT. A value and its groups of `n` bits, most significant first (30_encoding.md R108 item 3): cutting a value
into groups and reading groups as a value are inverse to each other. -/

namespace Sys2Proof.Machine

variable {n : Nat}

theorem isChunkWidth.pos (hn : isChunkWidth n) : 0 < n := by omega

theorem isChunkWidth.dvd (hn : isChunkWidth n) : n ∣ 8 := by
  rcases hn with rfl | rfl | rfl | rfl <;> decide

theorem isChunkWidth.div_mul (hn : isChunkWidth n) : 8 / n * n = 8 := Nat.div_mul_cancel hn.dvd

/-- The `k` lowest groups of a value, most significant first. -/
def valueGroups (n k v : Nat) : List Nat := (List.range k).reverse.map (fun i => v / 2 ^ (n * i) % 2 ^ n)

@[simp] theorem valueGroups_length (n k v : Nat) : (valueGroups n k v).length = k := by simp [valueGroups]

@[simp] theorem valueGroups_getElem {k v j : Nat} (h : j < (valueGroups n k v).length) :
    (valueGroups n k v)[j] = v / 2 ^ (n * (k - 1 - j)) % 2 ^ n := by
  simp [valueGroups]

theorem valueGroups_getElem? {k j : Nat} (h : j < k) (v : Nat) :
    (valueGroups n k v)[j]? = some (v / 2 ^ (n * (k - 1 - j)) % 2 ^ n) := by
  rw [List.getElem?_eq_getElem (by simpa using h), valueGroups_getElem]

theorem lt_of_mem_valueGroups {k v g : Nat} (h : g ∈ valueGroups n k v) : g < 2 ^ n := by
  obtain ⟨i, -, rfl⟩ := List.mem_map.mp h
  exact Nat.mod_lt _ (Nat.two_pow_pos n)

/-- The lowest group comes last. -/
theorem valueGroups_succ (n k v : Nat) : valueGroups n (k + 1) v = valueGroups n k (v / 2 ^ n) ++ [v % 2 ^ n] := by
  have hdiv (i : Nat) : v / 2 ^ (n * (i + 1)) = v / 2 ^ n / 2 ^ (n * i) := by
    rw [Nat.div_div_eq_div_mul, ← pow_add, Nat.mul_succ, Nat.add_comm]
  simp [valueGroups, List.range_succ_eq_map, List.map_reverse, Function.comp_def, hdiv]

@[simp] theorem groupsValue_nil (n : Nat) : groupsValue n [] = 0 := rfl

theorem groupsValue_concat (n : Nat) (gs : List Nat) (g : Nat) :
    groupsValue n (gs ++ [g]) = groupsValue n gs * 2 ^ n + g := by
  simp [groupsValue]

theorem groupsValue_append_replicate_zero (n : Nat) (gs : List Nat) (m : Nat) :
    groupsValue n (gs ++ List.replicate m 0) = groupsValue n gs * 2 ^ (m * n) := by
  induction m with
  | zero => simp
  | succ m ih =>
    rw [List.replicate_succ', ← List.append_assoc, groupsValue_concat, ih, Nat.add_zero, Nat.mul_assoc, ← pow_add,
      Nat.succ_mul]

theorem groupsValue_lt {gs : List Nat} (h : ∀ g ∈ gs, g < 2 ^ n) : groupsValue n gs < 2 ^ (gs.length * n) := by
  induction gs using List.reverseRecOn with
  | nil => simp
  | append_singleton gs g ih =>
    have hgs : groupsValue n gs + 1 ≤ 2 ^ (gs.length * n) := ih fun x hx => h x (by simp [hx])
    have hg : g < 2 ^ n := h g (by simp)
    calc groupsValue n (gs ++ [g]) = groupsValue n gs * 2 ^ n + g := groupsValue_concat n gs g
      _ < (groupsValue n gs + 1) * 2 ^ n := by rw [Nat.succ_mul]; omega
      _ ≤ 2 ^ (gs.length * n) * 2 ^ n := Nat.mul_le_mul_right _ hgs
      _ = 2 ^ ((gs ++ [g]).length * n) := by
        rw [← pow_add, List.length_append, List.length_singleton, Nat.succ_mul]

/-- Reading the `k` lowest groups of a value gives the value but for the bits above them. -/
theorem groupsValue_valueGroups (n k v : Nat) : groupsValue n (valueGroups n k v) = v % 2 ^ (k * n) := by
  induction k generalizing v with
  | zero => simp [valueGroups, Nat.mod_one]
  | succ k ih =>
    rw [valueGroups_succ, groupsValue_concat, ih, Nat.succ_mul, Nat.add_comm (k * n), pow_add, Nat.mod_mul]
    ring

/-- Cutting the value of a list of groups gives the groups back. -/
theorem valueGroups_groupsValue {gs : List Nat} (h : ∀ g ∈ gs, g < 2 ^ n) :
    valueGroups n gs.length (groupsValue n gs) = gs := by
  induction gs using List.reverseRecOn with
  | nil => rfl
  | append_singleton gs g ih =>
    have hg : g < 2 ^ n := h g (by simp)
    have hdiv : (groupsValue n gs * 2 ^ n + g) / 2 ^ n = groupsValue n gs := by
      rw [Nat.mul_comm, Nat.mul_add_div (Nat.two_pow_pos n), Nat.div_eq_of_lt hg, Nat.add_zero]
    have hmod : (groupsValue n gs * 2 ^ n + g) % 2 ^ n = g := by
      rw [Nat.mul_add_mod_self_right, Nat.mod_eq_of_lt hg]
    rw [List.length_append, List.length_singleton, valueGroups_succ, groupsValue_concat, hdiv, hmod,
      ih fun x hx => h x (by simp [hx])]

end Sys2Proof.Machine
end

section
/-! SUPPORT. The code of an integer (40_vwi_codec_and_chunker.md R132): `k - 1` zero groups and the `k` groups of the
value, the first of these not zero. -/

namespace Sys2Proof.Machine

variable {n v : Nat}

/-- `k`, the number of groups an integer needs (R132). -/
def codeWidth (v n : Nat) : Nat := ceilDiv (bitlength v) n

theorem chop_eq_append (v n : Nat) :
    chop v n = List.replicate (codeWidth v n - 1) 0 ++ valueGroups n (codeWidth v n) v := rfl

theorem ceilDiv_bounds {a b : Nat} (ha : 0 < a) (hb : 0 < b) :
    0 < ceilDiv a b ∧ b * (ceilDiv a b - 1) < a ∧ a ≤ b * ceilDiv a b := by
  have hle : b * ceilDiv a b ≤ a + b - 1 := Nat.mul_div_le (a + b - 1) b
  have hlt : a + b - 1 < b * ceilDiv a b + b := by
    rw [← Nat.mul_add_one]
    exact Nat.lt_mul_div_succ (a + b - 1) hb
  have hpos : 0 < ceilDiv a b := Nat.div_pos (by omega) hb
  have hsub : b * (ceilDiv a b - 1) = b * ceilDiv a b - b := Nat.mul_sub_one b _
  omega

theorem bitlength_bounds (hv : 1 ≤ v) : 0 < bitlength v ∧ 2 ^ (bitlength v - 1) ≤ v ∧ v < 2 ^ bitlength v := by
  have hne : v ≠ 0 := by omega
  rw [bitlength, if_neg hne]
  exact ⟨Nat.succ_pos _, Nat.log2_self_le hne, Nat.lt_log2_self⟩

/-- An integer needs exactly as many groups as its width says. -/
theorem codeWidth_bounds (hn : isChunkWidth n) (hv : 1 ≤ v) :
    0 < codeWidth v n ∧ 2 ^ (n * (codeWidth v n - 1)) ≤ v ∧ v < 2 ^ (n * codeWidth v n) := by
  obtain ⟨hbits, hlow, hhigh⟩ := bitlength_bounds hv
  obtain ⟨hpos, hlt, hle⟩ := ceilDiv_bounds hbits hn.pos
  exact ⟨hpos, (Nat.pow_le_pow_right two_pos (Nat.le_sub_one_of_lt hlt)).trans hlow,
    hhigh.trans_le (Nat.pow_le_pow_right two_pos hle)⟩

theorem groupsValue_code (hn : isChunkWidth n) (hv : 1 ≤ v) :
    groupsValue n (valueGroups n (codeWidth v n) v) = v := by
  obtain ⟨-, -, hlt⟩ := codeWidth_bounds hn hv
  rw [groupsValue_valueGroups, Nat.mul_comm, Nat.mod_eq_of_lt hlt]

/-- The first of the `k` groups of a value is not zero. -/
theorem valueGroups_code_eq_cons (hn : isChunkWidth n) (hv : 1 ≤ v) :
    ∃ g gs, g ≠ 0 ∧ gs.length = codeWidth v n - 1 ∧ valueGroups n (codeWidth v n) v = g :: gs := by
  obtain ⟨hpos, hle, hlt⟩ := codeWidth_bounds hn hv
  have hlen := valueGroups_length n (codeWidth v n) v
  have hfirst := valueGroups_getElem? (n := n) hpos v
  cases hcode : valueGroups n (codeWidth v n) v with
  | nil =>
    rw [hcode, List.length_nil] at hlen
    omega
  | cons g gs =>
    rw [hcode, List.length_cons] at hlen
    rw [hcode, List.getElem?_cons_zero, Option.some.injEq, Nat.sub_zero] at hfirst
    have hquot : v / 2 ^ (n * (codeWidth v n - 1)) < 2 ^ n := by
      refine Nat.div_lt_of_lt_mul ?_
      rwa [← pow_add, ← Nat.mul_add_one, Nat.sub_add_cancel hpos]
    refine ⟨g, gs, ?_, by omega, rfl⟩
    rw [hfirst, Nat.mod_eq_of_lt hquot]
    exact (Nat.div_pos hle (Nat.two_pow_pos _)).ne'

theorem chop_length (hn : isChunkWidth n) (hv : 1 ≤ v) : (chop v n).length = 2 * codeWidth v n - 1 := by
  obtain ⟨hpos, -, -⟩ := codeWidth_bounds hn hv
  rw [chop_eq_append, List.length_append, List.length_replicate, valueGroups_length]
  omega

theorem lt_of_mem_chop {g : Nat} (h : g ∈ chop v n) : g < 2 ^ n := by
  rcases List.mem_append.mp h with hzero | hvalue
  · rw [List.eq_of_mem_replicate hzero]
    exact Nat.two_pow_pos n
  · exact lt_of_mem_valueGroups hvalue

theorem chop_getElem?_zero {j : Nat} (hj : j < codeWidth v n - 1) : (chop v n)[j]? = some 0 := by
  rw [chop_eq_append, List.getElem?_append_left (by simpa using hj)]
  simp [hj]

theorem chop_drop (v n : Nat) : (chop v n).drop (codeWidth v n - 1) = valueGroups n (codeWidth v n) v :=
  List.drop_left' List.length_replicate

theorem chop_getElem?_value {j : Nat} (hj : j < codeWidth v n) :
    (chop v n)[codeWidth v n - 1 + j]? = some (v / 2 ^ (n * (codeWidth v n - 1 - j)) % 2 ^ n) := by
  rw [← List.getElem?_drop, chop_drop, valueGroups_getElem? hj]

/-- The first group after the zeros is not zero, so the zeros can be told from the value. -/
theorem chop_getElem?_ne_zero (hn : isChunkWidth n) (hv : 1 ≤ v) : (chop v n)[codeWidth v n - 1]? ≠ some 0 := by
  obtain ⟨g, gs, hg, -, hcode⟩ := valueGroups_code_eq_cons hn hv
  have hfirst : (chop v n)[codeWidth v n - 1 + 0]? = some g := by
    rw [← List.getElem?_drop, chop_drop, hcode, List.getElem?_cons_zero]
  rw [← Nat.add_zero (codeWidth v n - 1), hfirst]
  simpa using hg

/-- A value of one byte is its own code at width 8. -/
theorem chop_eight (hv : 1 ≤ v) (hbyte : v ≤ 255) : chop v 8 = [v] := by
  obtain ⟨hpos, hlow, -⟩ := codeWidth_bounds (n := 8) (by decide) hv
  have hexp : 8 * (codeWidth v 8 - 1) < 8 := (Nat.pow_lt_pow_iff_right (by decide)).mp (hlow.trans_lt (by omega))
  have hone : codeWidth v 8 = 1 := by omega
  have hmod : v % 2 ^ 8 = v := Nat.mod_eq_of_lt (by omega)
  rw [chop_eq_append, hone, valueGroups_succ, hmod]
  rfl

end Sys2Proof.Machine
end

section
/-! SUPPORT. Bytes and their groups (40_vwi_codec_and_chunker.md R134, R135): the groups of the packed bytes are the
groups that were packed, with zeros after them. -/

namespace Sys2Proof.Machine

variable {n : Nat}

theorem byteGroups_eq_valueGroups (hn : isChunkWidth n) (b : Byte) :
    byteGroups n b = valueGroups n (8 / n) b.toNat := by
  refine List.ext_getElem (by simp) fun j hj _ => ?_
  rw [byteGroups_length] at hj
  have hexp : 8 - j * n - n = n * (8 / n - 1 - j) := by
    rw [Nat.mul_sub, Nat.mul_sub_one, Nat.mul_comm n (8 / n), hn.div_mul, Nat.mul_comm n j]
    omega
  simp [byteGroups, groupAt, hexp]

/-- A byte made of as many groups as fit has these groups. -/
theorem byteGroups_toByte (hn : isChunkWidth n) {gs : List Nat} (hlen : gs.length = 8 / n)
    (hgs : ∀ g ∈ gs, g < 2 ^ n) : byteGroups n (toByte (groupsValue n gs)) = gs := by
  have hlt : groupsValue n gs < 2 ^ 8 := by
    calc groupsValue n gs < 2 ^ (gs.length * n) := groupsValue_lt hgs
      _ = 2 ^ 8 := by rw [hlen, hn.div_mul]
  rw [byteGroups_eq_valueGroups hn, BitVec.toNat_ofNat, Nat.mod_eq_of_lt hlt, ← hlen, valueGroups_groupsValue hgs]

/-- Packing with the groups `ds` already in a byte that is not full: the groups of the bytes are `ds`, the groups packed
and fewer zeros than fill a byte. -/
theorem groupsOf_packFrom (hn : isChunkWidth n) {gs : List Nat} (hgs : ∀ g ∈ gs, g < 2 ^ n) {ds : List Nat}
    (hds : ∀ g ∈ ds, g < 2 ^ n) (hlen : ds.length < 8 / n) :
    ∃ pad < 8 / n,
      groupsOf n (packFrom n (ds.length * n) (groupsValue n ds) gs) = ds ++ gs ++ List.replicate pad 0 := by
  have hn0 : 0 < n := hn.pos
  have h8 : 8 / n * n = 8 := hn.div_mul
  induction gs generalizing ds with
  | nil =>
    cases ds with
    | nil => exact ⟨0, by simpa using hlen, by simp [packFrom, groupsOf]⟩
    | cons d ds =>
      have hused : (d :: ds).length * n ≠ 0 := by
        rw [List.length_cons]
        positivity
      have hfree : 8 - (d :: ds).length * n = (8 / n - (d :: ds).length) * n := by rw [Nat.sub_mul, h8]
      refine ⟨8 / n - (d :: ds).length, by rw [List.length_cons]; omega, ?_⟩
      rw [packFrom, if_neg hused, hfree, ← groupsValue_append_replicate_zero, groupsOf_cons,
        byteGroups_toByte hn]
      · simp [groupsOf]
      · rw [List.length_append, List.length_replicate]
        omega
      · intro g hg
        rcases List.mem_append.mp hg with hg | hg
        · exact hds g hg
        · rw [List.eq_of_mem_replicate hg]
          exact Nat.two_pow_pos n
  | cons g gs ih =>
    have hgs' : ∀ x ∈ gs, x < 2 ^ n := fun x hx => hgs x (List.mem_cons_of_mem g hx)
    have hds' : ∀ x ∈ ds ++ [g], x < 2 ^ n := by
      intro x hx
      rcases List.mem_append.mp hx with hx | hx
      · exact hds x hx
      · exact hgs x (by simpa using Or.inl (List.mem_singleton.mp hx))
    have hused : ds.length * n + n = (ds ++ [g]).length * n := by simp [Nat.succ_mul]
    rw [packFrom, hused, ← groupsValue_concat]
    by_cases hfull : (ds ++ [g]).length * n = 8
    · have hlen' : (ds ++ [g]).length = 8 / n := Nat.eq_div_of_mul_eq_left hn0.ne' hfull
      obtain ⟨pad, hpad, ih⟩ := ih hgs' (ds := []) (by simp) (by simp; omega)
      refine ⟨pad, hpad, ?_⟩
      rw [List.length_nil, Nat.zero_mul, groupsValue_nil] at ih
      rw [if_pos hfull, groupsOf_cons, byteGroups_toByte hn hlen' hds', ih]
      simp
    · have hlen' : (ds ++ [g]).length < 8 / n := by
        have hne : (ds ++ [g]).length ≠ 8 / n := fun h => hfull (h ▸ h8)
        rw [List.length_append, List.length_singleton] at hne ⊢
        omega
      obtain ⟨pad, hpad, ih⟩ := ih hgs' hds' hlen'
      refine ⟨pad, hpad, ?_⟩
      rw [if_neg hfull, ih]
      simp

/-- The groups of packed bytes are the groups packed, and fewer zeros after them than fill a byte (R134). -/
theorem groupsOf_packGroups (hn : isChunkWidth n) {gs : List Nat} (hgs : ∀ g ∈ gs, g < 2 ^ n) :
    ∃ pad < 8 / n, groupsOf n (packGroups gs n) = gs ++ List.replicate pad 0 := by
  have h8 : 0 < 8 / n := Nat.div_pos (Nat.le_of_dvd (by decide) hn.dvd) hn.pos
  simpa [packGroups] using groupsOf_packFrom hn hgs (ds := []) (by simp) h8

/-- Packed bytes are as many as the groups need (R134). -/
theorem packGroups_length (hn : isChunkWidth n) {gs : List Nat} (hgs : ∀ g ∈ gs, g < 2 ^ n) :
    (packGroups gs n).length = ceilDiv (gs.length * n) 8 := by
  obtain ⟨pad, hpad, hgroups⟩ := groupsOf_packGroups hn hgs
  have hlen : (packGroups gs n).length * (8 / n) = gs.length + pad := by
    rw [← groupsOf_length, hgroups, List.length_append, List.length_replicate]
  have hbits : (packGroups gs n).length * 8 = gs.length * n + pad * n := by
    rw [← Nat.add_mul, ← hlen, Nat.mul_assoc, hn.div_mul]
  have hpad8 : pad * n < 8 := by
    calc pad * n < 8 / n * n := Nat.mul_lt_mul_of_pos_right hpad hn.pos
      _ = 8 := hn.div_mul
  unfold ceilDiv
  omega

/-- The group at a place of packed bytes is the group packed there, or zero after the last one. -/
theorem group_packGroups (hn : isChunkWidth n) {gs : List Nat} (hgs : ∀ g ∈ gs, g < 2 ^ n) {j : Nat}
    (hj : (j + 1) * n ≤ 8 * (packGroups gs n).length) : group (packGroups gs n) (j * n) n = gs.getD j 0 := by
  obtain ⟨pad, -, hgroups⟩ := groupsOf_packGroups hn hgs
  have hlt : j < (groupsOf n (packGroups gs n)).length := by
    rw [groupsOf_length]
    refine Nat.lt_of_mul_lt_mul_right (a := n) ?_
    have hn0 : 0 < n := hn.pos
    rw [Nat.succ_mul] at hj
    rw [Nat.mul_assoc, hn.div_mul]
    omega
  have hget : (groupsOf n (packGroups gs n))[j]? = some (group (packGroups gs n) (j * n) n) := by
    rw [List.getElem?_eq_getElem hlt, groupsOf_getElem hn]
  rw [hgroups] at hget hlt
  rw [List.getElem?_eq_getElem hlt, Option.some.injEq] at hget
  rw [← hget]
  by_cases hin : j < gs.length
  · rw [List.getElem_append_left hin, List.getD_eq_getElem _ _ hin]
  · have hout : gs.length ≤ j := not_lt.mp hin
    rw [List.getElem_append_right hout, List.getElem_replicate, List.getD_eq_default _ _ hout]

end Sys2Proof.Machine
end

section
/-! SUPPORT. The groups ahead of a cursor, and reading one integer from them (40_vwi_codec_and_chunker.md R135, R140):
every list of groups is some zeros and then nothing or a group that is not zero, and these cases decide the scan. -/

namespace Sys2Proof.Machine

variable {n : Nat}

section GroupsFrom

variable {B : List Byte} {E p : Nat}

/-- A place before the end of a list of bytes cut at `E` is a place of the whole list. -/
theorem group_take (B : List Byte) (n : Nat) (hp : p < 8 * E) : group (B.take E) p n = group B p n := by
  have hbyte : p / 8 < E := Nat.div_lt_of_lt_mul hp
  simp [group, List.getD_eq_getElem?_getD, hbyte]

theorem groupsFrom_length_mul (hn : isChunkWidth n) (hE : E ≤ B.length) (hp : p % n = 0) :
    (groupsFrom B E p n).length * n = 8 * E - p := by
  rw [groupsFrom, List.length_drop, groupsOf_length, List.length_take, Nat.min_eq_left hE, Nat.sub_mul, Nat.mul_assoc,
    hn.div_mul, Nat.div_mul_cancel (Nat.dvd_of_mod_eq_zero hp), Nat.mul_comm]

/-- Group `j` from the position `p` on is the group `j·n` bits after it. -/
theorem groupsFrom_getElem (hn : isChunkWidth n) (hE : E ≤ B.length) (hp : p % n = 0) {j : Nat}
    (hj : j < (groupsFrom B E p n).length) : (groupsFrom B E p n)[j] = group B (p + j * n) n := by
  have hpos : (p / n + j) * n = p + j * n := by rw [Nat.add_mul, Nat.div_mul_cancel (Nat.dvd_of_mod_eq_zero hp)]
  have hlt : p + j * n < 8 * E := by
    have hlen := groupsFrom_length_mul hn hE hp
    have hmul : j * n < (groupsFrom B E p n).length * n := Nat.mul_lt_mul_of_pos_right hj hn.pos
    omega
  simp only [groupsFrom, List.getElem_drop, groupsOf_getElem hn, hpos, group_take B n hlt]

theorem groupsFrom_drop (hn : isChunkWidth n) (B : List Byte) (E p m : Nat) :
    (groupsFrom B E p n).drop m = groupsFrom B E (p + m * n) n := by
  rw [groupsFrom, groupsFrom, List.drop_drop, Nat.add_mul_div_right p m hn.pos]

/-- The first `m` groups from a position on, where there are so many. -/
theorem groupsFrom_take (hn : isChunkWidth n) (hE : E ≤ B.length) (hp : p % n = 0) {m : Nat}
    (hm : p + m * n ≤ 8 * E) :
    (groupsFrom B E p n).take m = (List.range m).map (fun j => group B (p + j * n) n) := by
  have hlen : m ≤ (groupsFrom B E p n).length := by
    refine Nat.le_of_mul_le_mul_right ?_ hn.pos
    rw [groupsFrom_length_mul hn hE hp]
    omega
  refine List.ext_getElem (by simpa using hlen) fun j hj _ => ?_
  rw [List.getElem_take, groupsFrom_getElem hn hE hp, List.getElem_map, List.getElem_range]

theorem groupsFrom_end (hn : isChunkWidth n) (hE : E ≤ B.length) : groupsFrom B E (8 * E) n = [] := by
  have hp : 8 * E % n = 0 := Nat.mod_eq_zero_of_dvd (hn.dvd.mul_right E)
  have hlen := groupsFrom_length_mul hn hE hp
  rw [Nat.sub_self, Nat.mul_eq_zero] at hlen
  exact List.eq_nil_of_length_eq_zero (hlen.resolve_right hn.pos.ne')

/-- Before the end there is a group at the cursor. -/
theorem groupsFrom_eq_cons (hn : isChunkWidth n) (hE : E ≤ B.length) (hp : p % n = 0) (hlt : p < 8 * E) :
    groupsFrom B E p n = group B p n :: groupsFrom B E (p + n) n := by
  have hpos : 0 < (groupsFrom B E p n).length := by
    refine Nat.pos_of_mul_pos_right (b := n) ?_
    rw [groupsFrom_length_mul hn hE hp]
    omega
  have hfirst : (groupsFrom B E p n)[0] = group B p n := by simpa using groupsFrom_getElem hn hE hp hpos
  calc groupsFrom B E p n = (groupsFrom B E p n)[0] :: (groupsFrom B E p n).drop 1 := by
        rw [← List.drop_eq_getElem_cons hpos, List.drop_zero]
    _ = group B p n :: groupsFrom B E (p + n) n := by rw [hfirst, groupsFrom_drop hn, Nat.one_mul]

/-- Zero groups at the cursor, and the groups after them. -/
theorem groupsFrom_of_zeros (hn : isChunkWidth n) (hE : E ≤ B.length) (hp : p % n = 0) {z : Nat}
    (hz : p + z * n ≤ 8 * E) (hzero : ∀ j < z, group B (p + j * n) n = 0) :
    groupsFrom B E p n = List.replicate z 0 ++ groupsFrom B E (p + z * n) n := by
  have htake : (groupsFrom B E p n).take z = List.replicate z 0 := by
    rw [groupsFrom_take hn hE hp hz, List.eq_replicate_iff]
    simpa using hzero
  rw [← htake, ← groupsFrom_drop hn, List.take_append_drop]

end GroupsFrom

section Scan

theorem scanFrom_zeros_append (n zc z : Nat) (gs : List Nat) :
    scanFrom n zc (List.replicate z 0 ++ gs) = scanFrom n (zc + z) gs := by
  induction z generalizing zc with
  | zero => simp
  | succ z ih =>
    rw [List.replicate_succ, List.cons_append, scanFrom, if_pos rfl, ih, Nat.add_assoc, Nat.add_comm 1]

/-- Zeros up to the end are no integer (R140). -/
theorem scanFrom_zeros (n zc z : Nat) : scanFrom n zc (List.replicate z 0) = .endOfStream := by
  rw [← List.append_nil (List.replicate z 0), scanFrom_zeros_append, scanFrom]

/-- A code whose groups are all there is read as its value (R140). -/
theorem scanFrom_eq_value {g z : Nat} {gs : List Nat} (hg : g ≠ 0) (hlen : z ≤ gs.length) :
    scanFrom n 0 (List.replicate z 0 ++ g :: gs) =
      .value (groupsValue n ((g :: gs).take (z + 1))) (2 * z + 1) ((g :: gs).drop (z + 1)) := by
  have hle : ¬((g :: gs).take (z + 1)).length < z + 1 := by
    rw [List.length_take, List.length_cons]
    omega
  rw [scanFrom_zeros_append, scanFrom, if_neg hg, Nat.zero_add, if_neg hle]

/-- A code that the end cuts off is truncated (R140). -/
theorem scanFrom_eq_truncated {g z : Nat} {gs : List Nat} (hg : g ≠ 0) (hlen : gs.length < z) :
    scanFrom n 0 (List.replicate z 0 ++ g :: gs) = .truncated := by
  have hlt : ((g :: gs).take (z + 1)).length < z + 1 := by
    rw [List.length_take, List.length_cons]
    omega
  rw [scanFrom_zeros_append, scanFrom, if_neg hg, Nat.zero_add, if_pos hlt]

/-- The code of an integer is read as the integer, and what follows it is left (R132, R140). -/
theorem scanFrom_chop (hn : isChunkWidth n) {v : Nat} (hv : 1 ≤ v) (gs : List Nat) :
    scanFrom n 0 (chop v n ++ gs) = .value v (2 * (codeWidth v n - 1) + 1) gs := by
  obtain ⟨g, ds, hg, hlen, hcode⟩ := valueGroups_code_eq_cons hn hv
  have hlen' : (g :: ds).length = codeWidth v n - 1 + 1 := by rw [List.length_cons, hlen]
  have hvalue : groupsValue n (g :: ds) = v := hcode ▸ groupsValue_code hn hv
  rw [chop_eq_append, List.append_assoc, hcode, List.cons_append,
    scanFrom_eq_value hg (by rw [List.length_append]; omega), ← List.cons_append, List.take_left' hlen',
    List.drop_left' hlen', hvalue]

/-- A scan that reads a value takes at least one group, and leaves the groups after those it takes. -/
theorem scanFrom_value_rest {zc v used : Nat} {gs rest : List Nat} (h : scanFrom n zc gs = .value v used rest) :
    zc < used ∧ used - zc ≤ gs.length ∧ rest = gs.drop (used - zc) := by
  induction gs generalizing zc with
  | nil => cases h
  | cons g gs ih =>
    by_cases hg : g = 0
    · rw [scanFrom, if_pos hg] at h
      obtain ⟨hlt, hle, hrest⟩ := ih h
      have hsucc : used - zc = used - (zc + 1) + 1 := by omega
      rw [hsucc, List.drop_succ_cons, List.length_cons]
      exact ⟨by omega, by omega, hrest⟩
    · rw [scanFrom, if_neg hg] at h
      split at h
      · cases h
      next hlen =>
        have hused : 2 * zc + 1 - zc = zc + 1 := by omega
        rw [List.length_take, not_lt, Nat.le_min] at hlen
        obtain ⟨-, rfl, rfl⟩ := Scan.value.inj h
        obtain ⟨-, hle⟩ := hlen
        rw [hused]
        exact ⟨by omega, hle, rfl⟩

end Scan

section Scans

/-- Every integer up to the end of the groups (R141); `none` is `Truncated`. -/
def scanGroups (n : Nat) (gs : List Nat) : Option (List Nat) := scanAll n gs.length gs

theorem unpackSeq_eq_scanGroups (B : List Byte) (S E n : Nat) :
    unpackSeq B S E n = scanGroups n (groupsFrom B E (8 * S) n) := rfl

/-- As every integer takes a group, as many readings as there are groups are enough. -/
theorem scanAll_eq_of_length_le {fuel fuel' : Nat} {gs : List Nat} (h : gs.length ≤ fuel) (h' : gs.length ≤ fuel') :
    scanAll n fuel gs = scanAll n fuel' gs := by
  have hnil (k : Nat) : scanAll n k [] = some [] := by cases k <;> rfl
  induction fuel generalizing fuel' gs with
  | zero => rw [List.eq_nil_of_length_eq_zero (Nat.le_zero.mp h), hnil, hnil]
  | succ fuel ih =>
    cases fuel' with
    | zero => rw [List.eq_nil_of_length_eq_zero (Nat.le_zero.mp h'), hnil, hnil]
    | succ fuel' =>
      rw [scanAll, scanAll]
      cases hscan : scanFrom n 0 gs with
      | value v used rest =>
        obtain ⟨hused, hle, rfl⟩ := scanFrom_value_rest hscan
        have hlen : (gs.drop (used - 0)).length < gs.length := by
          rw [List.length_drop]
          omega
        exact congrArg (Option.map _) (ih (by omega) (by omega))
      | endOfStream => rfl
      | truncated => rfl

/-- A value at the front of the groups is the first integer read. -/
theorem scanGroups_of_value {gs rest : List Nat} {v used : Nat} (h : scanFrom n 0 gs = .value v used rest) :
    scanGroups n gs = (scanGroups n rest).map (fun vs => v :: vs) := by
  obtain ⟨hused, hle, hrest⟩ := scanFrom_value_rest h
  have hlen : rest.length < gs.length := by
    rw [hrest, List.length_drop]
    omega
  obtain ⟨fuel, hfuel⟩ := Nat.exists_eq_add_one_of_ne_zero (Nat.ne_zero_of_lt hlen)
  rw [scanGroups, hfuel, scanAll, h]
  exact congrArg (Option.map _) (scanAll_eq_of_length_le (by omega) le_rfl)

/-- Every reading gives at most one integer. -/
theorem length_le_of_scanAll {fuel : Nat} {gs r : List Nat} (h : scanAll n fuel gs = some r) : r.length ≤ fuel := by
  induction fuel generalizing gs r with
  | zero =>
    cases h
    exact le_rfl
  | succ fuel ih =>
    rw [scanAll] at h
    split at h
    · obtain ⟨r', hr', rfl⟩ := Option.map_eq_some_iff.mp h
      exact Nat.succ_le_succ (ih hr')
    · cases h
      exact Nat.zero_le _
    · cases h

/-- There are no more integers than groups. -/
theorem length_le_of_scanGroups {gs r : List Nat} (h : scanGroups n gs = some r) : r.length ≤ gs.length :=
  length_le_of_scanAll h

theorem scanGroups_of_endOfStream {gs : List Nat} (h : scanFrom n 0 gs = .endOfStream) :
    scanGroups n gs = some [] := by
  rw [scanGroups]
  cases gs with
  | nil => rfl
  | cons g gs => rw [List.length_cons, scanAll, h]

theorem scanGroups_of_truncated {gs : List Nat} (h : scanFrom n 0 gs = .truncated) : scanGroups n gs = none := by
  cases gs with
  | nil => cases h
  | cons g gs => rw [scanGroups, List.length_cons, scanAll, h]

/-- Reading integers undoes the codes of a sequence, with zeros after them or not (R144). -/
theorem scanGroups_chopAll (hn : isChunkWidth n) {seq : List Nat} (hseq : ∀ v ∈ seq, 1 ≤ v) (pad : Nat) :
    scanGroups n (chopAll seq n ++ List.replicate pad 0) = some seq := by
  induction seq with
  | nil => exact scanGroups_of_endOfStream (scanFrom_zeros n 0 pad)
  | cons v seq ih =>
    obtain ⟨hv, hrest⟩ := List.forall_mem_cons.mp hseq
    have hscan := scanFrom_chop hn hv (chopAll seq n ++ List.replicate pad 0)
    rw [← List.append_assoc] at hscan
    exact (scanGroups_of_value hscan).trans (by rw [ih hrest]; rfl)

end Scans

section NextValue

variable {B : List Byte} {E p q v : Nat}

/-- A value read at the cursor is the first integer of those read from there, and the cursor stays inside the window
(R140, R141). -/
theorem nextValue_eq_value (hn : isChunkWidth n) (hE : E ≤ B.length) (hp : p % n = 0)
    (h : nextValue B E p n = .value v q) :
    q ≤ 8 * E ∧ q % n = 0 ∧
      scanGroups n (groupsFrom B E p n) = (scanGroups n (groupsFrom B E q n)).map (fun vs => v :: vs) := by
  unfold nextValue at h
  split at h
  next v' used rest hscan =>
    obtain ⟨hused, hle, hrest⟩ := scanFrom_value_rest hscan
    obtain ⟨rfl, rfl⟩ := Next.value.inj h
    rw [Nat.sub_zero] at hle hrest
    rw [groupsFrom_drop hn] at hrest
    have hbits := Nat.mul_le_mul_right n hle
    have hpos : 0 < used * n := Nat.mul_pos hused hn.pos
    rw [groupsFrom_length_mul hn hE hp] at hbits
    exact ⟨by omega, by rw [Nat.add_mul_mod_self_right, hp], hrest ▸ scanGroups_of_value hscan⟩
  · cases h
  · cases h

theorem scanGroups_of_nextValue_endOfStream (h : nextValue B E p n = .endOfStream q) :
    scanGroups n (groupsFrom B E p n) = some [] := by
  unfold nextValue at h
  split at h
  · cases h
  next hscan => exact scanGroups_of_endOfStream hscan
  · cases h

theorem scanGroups_of_nextValue_truncated (h : nextValue B E p n = .truncated) :
    scanGroups n (groupsFrom B E p n) = none := by
  unfold nextValue at h
  split at h
  · cases h
  · cases h
  next hscan => exact scanGroups_of_truncated hscan

end NextValue

end Sys2Proof.Machine
end

section
/-! SUPPORT. What a command does, from what its body does: its effect, its fault, and `OperandInvalid` where it cannot
read its operands (60_exceptions.md R304, R306). -/

namespace Sys2Proof.Machine

section Command

variable {i : Instr} {s t : State}

theorem exec_of_body_ok (hs : s.fault = 0) (h : opBody i s = .ok t) (hi : i ≠ .sysReset := by decide) :
    exec i s = .next t := by
  rw [exec_eq_runOp hi, runOp_ok hs h]

theorem exec_of_body_error (x : FaultCode) (hs : s.fault = 0) (h : opBody i s = .error x)
    (hi : i ≠ .sysReset := by decide) : exec i s = faulted x.code (encode i) s := by
  rw [exec_eq_runOp hi, runOp_error hs h]
  rfl

/-- A command some operand of which holds no value raises `OperandInvalid` (10_state.md R23). -/
theorem exec_of_operand_invalid (hs : s.fault = 0) (h : ¬∀ p ∈ readSet i s, (s.place p).valid = true)
    (hi : i ≠ .sysReset := by decide) : exec i s = faulted 17 (encode i) s := by
  simp only [not_forall, Bool.not_eq_true] at h
  obtain ⟨p, hp, hvalid⟩ := h
  exact exec_of_body_error .operandInvalid hs ((opBody_follows (s' := s) hi rfl fun _ => rfl).invalid p hp hvalid) hi

/-- Two requirements in a row with one fault are one requirement. -/
theorem require_bind_require {p q : Prop} [Decidable p] [Decidable q] {f : FaultCode} {α : Type}
    (k : Unit → Except FaultCode α) :
    (require p f >>= fun _ => require q f >>= k) = (require (p ∧ q) f >>= k) := by
  by_cases hp : p <;> simp [require, hp]

theorem FaultCode.code_ne_zero (x : FaultCode) : x.code ≠ 0 := by
  cases x <;> decide

/-- A command that leaves no fault recorded is one whose body answers. -/
theorem exec_eq_next_iff_body_ok (hs : s.fault = 0) (hi : i ≠ .sysReset := by decide) :
    (exec i s = .next t ∧ t.fault = 0) ↔ opBody i s = .ok t := by
  constructor
  · rintro ⟨h, ht⟩
    rw [exec_eq_runOp hi, runOp_eq_next] at h
    rcases h with ⟨hne, -⟩ | ⟨-, hok⟩ | ⟨-, x, -, rfl⟩
    · exact absurd hs hne
    · exact hok
    · exact absurd ht x.code_ne_zero
  · intro h
    obtain ⟨ws, -, ht⟩ := opBody_eq_ok hi h
    exact ⟨exec_of_body_ok hs h hi, by rw [ht, applyWrites_fault, hs]⟩

end Command

section Cursor

variable {n : Nat}

/-- Moving the cursor to a place named by register contents. -/
theorem State.setCursor_toNat (s : State) (si : BitVec 17) (bi : BitVec 3) (e : Bool) :
    s.setCursor si.toNat bi.toNat e = { s with regs.si := .put si, regs.bi := .put bi, eos := e } := by
  simp [State.setCursor, State.setSi, State.setBi, State.setEos]

/-- The group at the cursor lies in the byte `SI` (10_state.md R27). -/
theorem group_cursor (B : List Byte) (si : Nat) (bi : BitVec 3) (n : Nat) :
    group B (8 * si + bi.toNat) n = groupAt (B.getD si 0) bi.toNat n := by
  have hbyte : (8 * si + bi.toNat) / 8 = si := by omega
  have hbit : (8 * si + bi.toNat) % 8 = bi.toNat := by omega
  rw [group, hbyte, hbit]

/-- A bit cursor that is a multiple of the width leaves room for a group in its byte. -/
theorem cursor_add_le (hn : isChunkWidth n) (bi : BitVec 3) (hbi : bi.toNat % n = 0) : bi.toNat + n ≤ 8 := by
  have hlt := bi.isLt
  rcases hn with rfl | rfl | rfl | rfl <;> omega

/-- The groups of a window whose length is just enough for `m` of them (R146). -/
theorem groupsFrom_window {B : List Byte} {S E m : Nat} (hn : isChunkWidth n) (hE : E ≤ B.length) (hS : S ≤ E)
    (hm : E - S = ceilDiv (m * n) 8) :
    (groupsFrom B E (8 * S) n).take m = (List.range m).map (fun j => group B (8 * S + j * n) n) := by
  refine groupsFrom_take hn hE (Nat.mod_eq_zero_of_dvd (hn.dvd.mul_right S)) ?_
  unfold ceilDiv at hm
  omega

/-- At width 8 packing copies the bytes (R145). -/
theorem packGroups_eight (xs : List Byte) : packGroups (xs.map BitVec.toNat) 8 = xs := by
  have hcons (g : Nat) (gs : List Nat) : packGroups (g :: gs) 8 = toByte g :: packGroups gs 8 := by
    simp [packGroups, packFrom]
  induction xs with
  | nil => rfl
  | cons x xs ih =>
    rw [List.map_cons, hcons, ih]
    simp

end Cursor

end Sys2Proof.Machine
end

section
/-! SUPPORT. `VWI.DEC` repeated from `CUR.SET` on, against the integers of the window (40_vwi_codec_and_chunker.md
R143): between two readings the cursor stands at a bit position, and what is left to read are the groups from there. -/

namespace Sys2Proof.Machine

/-- With no fault recorded, the unpacker's cursor stands at bit `p` of the bytes `buf`, with the end `re` of the window
and the chunk width `n`; `cfg` are the parameters. -/
structure AtBit (cfg : Config) (buf : List Byte) (re : BitVec 17) (n : BitVec 7) (p : Nat) (s : State) : Prop where
  cfg_eq : s.cfg = cfg
  fault_eq : s.fault = 0
  buf_eq : s.mem.buf = .put buf
  re_eq : s.regs.re = .put re
  n_eq : s.regs.n = .put n
  si_eq : s.regs.si = .put (BitVec.ofNat 17 (p / 8))
  bi_eq : s.regs.bi = .put (BitVec.ofNat 3 (p % 8))
  width : isChunkWidth n.toNat
  re_le : re.toNat ≤ buf.length
  le_end : p ≤ 8 * re.toNat
  mod_eq : p % n.toNat = 0

variable {s t u : State} {cfg : Config} {buf : List Byte} {re : BitVec 17} {n : BitVec 7} {p q v : Nat}

theorem toNat_byteIndex (h : p ≤ 8 * re.toNat) : (BitVec.ofNat 17 (p / 8)).toNat = p / 8 := by
  have hre := re.isLt
  exact Nat.mod_eq_of_lt (by omega)

theorem toNat_bitIndex (p : Nat) : (BitVec.ofNat 3 (p % 8)).toNat = p % 8 :=
  Nat.mod_eq_of_lt (Nat.mod_lt p (by decide))

/-- What `VWI.DEC` does at a bit position is decided by `nextValue` there. -/
theorem AtBit.opVwiDec_eq_ok (h : AtBit cfg buf re n p s) :
    opVwiDec s = .ok t ↔
      (∃ v q, nextValue buf re.toNat p n.toNat = .value v q ∧ fitsVBits cfg v = true ∧
          t = (s.setV v).setCursor (q / 8) (q % 8) false) ∨
        (∃ q, nextValue buf re.toNat p n.toNat = .endOfStream q ∧ t = (s.setV 0).setCursor re.toNat 0 true) := by
  have hsi := toNat_byteIndex h.le_end
  have hbi := toNat_bitIndex p
  have hle := h.le_end
  have hpos : 8 * (BitVec.ofNat 17 (p / 8)).toNat + (BitVec.ofNat 3 (p % 8)).toNat = p := by
    rw [hsi, hbi]
    exact Nat.div_add_mod p 8
  have hin : (BitVec.ofNat 17 (p / 8)).toNat < re.toNat ∨
      (BitVec.ofNat 17 (p / 8) = re ∧ BitVec.ofNat 3 (p % 8) = 0) := by
    rcases Nat.lt_or_ge (p / 8) re.toNat with hlt | hge
    · exact .inl (by rwa [hsi])
    · refine .inr ⟨BitVec.eq_of_toNat_eq (by omega), BitVec.eq_of_toNat_eq ?_⟩
      rw [hbi]
      change p % 8 = 0
      omega
  have hbit : (BitVec.ofNat 3 (p % 8)).toNat % n.toNat = 0 := by
    rw [hbi, Nat.mod_mod_of_dvd p h.width.dvd, h.mod_eq]
  rw [Machine.opVwiDec_eq_ok, h.cfg_eq]
  constructor
  · rintro ⟨buf', re', si, bi, n', hbuf, hre, hsi', hbi', hn, -, -, -, -, hnext⟩
    cases h.buf_eq.symm.trans hbuf
    cases h.re_eq.symm.trans hre
    cases h.si_eq.symm.trans hsi'
    cases h.bi_eq.symm.trans hbi'
    cases h.n_eq.symm.trans hn
    rwa [hpos] at hnext
  · intro hnext
    refine ⟨buf, re, _, _, n, h.buf_eq, h.re_eq, h.si_eq, h.bi_eq, h.n_eq, h.width, h.re_le, hin, hbit, ?_⟩
    rwa [hpos]

/-- After an integer the cursor stands after its code. -/
theorem AtBit.after_value (h : AtBit cfg buf re n p s) (hnext : nextValue buf re.toNat p n.toNat = .value v q) :
    AtBit cfg buf re n q ((s.setV v).setCursor (q / 8) (q % 8) false) := by
  obtain ⟨hle, hmod, -⟩ := nextValue_eq_value h.width h.re_le h.mod_eq hnext
  exact { h with si_eq := rfl, bi_eq := rfl, le_end := hle, mod_eq := hmod }

/-- The cursor that `CUR.SET` places. -/
theorem AtBit.after_curSet {rb : BitVec 17} (hs : s.fault = 0) (hbuf : s.mem.buf = .put buf) (hre : s.regs.re = .put re)
    (hn : s.regs.n = .put n) (hw : isChunkWidth n.toNat) (hwin : windowOk buf rb re) :
    AtBit s.cfg buf re n (8 * rb.toNat) (s.setCursor rb.toNat 0 false) where
  cfg_eq := rfl
  fault_eq := hs
  buf_eq := hbuf
  re_eq := hre
  n_eq := hn
  si_eq := by rw [Nat.mul_div_cancel_left _ (by decide)]; rfl
  bi_eq := by rw [Nat.mul_mod_right]; rfl
  width := hw
  re_le := hwin.2
  le_end := Nat.mul_le_mul_left 8 hwin.1
  mod_eq := Nat.mod_eq_zero_of_dvd (hw.dvd.mul_right _)

/-- A reading that answers is the last one where it sets `EOS`, and else one integer before those that follow. -/
theorem readUntilEos_of_body_ok (fuel : Nat) (hs : s.fault = 0) (hok : opVwiDec s = .ok t) :
    readUntilEos (fuel + 1) s =
      if t.eos then some ([], t) else (readUntilEos fuel t).map (fun e => (t.regs.v.val :: e.1, e.2)) := by
  obtain ⟨hexec, hfault⟩ := (exec_eq_next_iff_body_ok (i := .vwiDec) hs).mpr hok
  have hnot : ¬t.fault ≠ 0 := not_not.mpr hfault
  rw [readUntilEos, hexec]
  exact if_neg hnot

/-- A reading that faults ends the readings without a result. -/
theorem readUntilEos_of_body_error {x : FaultCode} (fuel : Nat) (hs : s.fault = 0) (herror : opVwiDec s = .error x) :
    readUntilEos (fuel + 1) s = none := by
  have hexec : exec .vwiDec s = faulted x.code 0x11 s := exec_of_body_error (i := .vwiDec) x hs herror
  rw [readUntilEos, hexec]
  exact if_pos x.code_ne_zero

/-- One of the readings that reach the end: the last one, or an integer before those that follow. -/
theorem readUntilEos_succ_eq_some {fuel : Nat} {r : List Nat} (hs : s.fault = 0)
    (h : readUntilEos (fuel + 1) s = some (r, u)) :
    ∃ t, opVwiDec s = .ok t ∧
      ((t.eos = true ∧ r = []) ∨
        (t.eos = false ∧ ∃ r', readUntilEos fuel t = some (r', u) ∧ r = t.regs.v.val :: r')) := by
  cases hbody : opVwiDec s with
  | error x =>
    rw [readUntilEos_of_body_error fuel hs hbody] at h
    cases h
  | ok t =>
    rw [readUntilEos_of_body_ok fuel hs hbody] at h
    refine ⟨t, rfl, ?_⟩
    cases heos : t.eos with
    | true =>
      rw [heos, if_pos rfl] at h
      cases h
      exact .inl ⟨rfl, rfl⟩
    | false =>
      rw [heos, if_neg Bool.false_ne_true, Option.map_eq_some_iff] at h
      obtain ⟨⟨r', u'⟩, hread, heq⟩ := h
      cases heq
      exact .inr ⟨rfl, r', hread, rfl⟩

/-- Readings one more than the integers ahead read them all and end at the end of the window. -/
theorem AtBit.readUntilEos_of_scanGroups {fuel : Nat} {r : List Nat} (h : AtBit cfg buf re n p s)
    (hr : scanGroups n.toNat (groupsFrom buf re.toNat p n.toNat) = some r) (hfits : ∀ v ∈ r, fitsVBits cfg v = true)
    (hfuel : r.length < fuel) :
    ∃ u, readUntilEos fuel s = some (r, u) ∧ u.regs.si = .put re ∧ u.regs.bi = .put 0 ∧ u.eos = true ∧
      u.fault = 0 := by
  induction fuel generalizing p s r with
  | zero => exact absurd hfuel (Nat.not_lt_zero _)
  | succ fuel ih =>
    cases hnext : nextValue buf re.toNat p n.toNat with
    | value v q =>
      obtain ⟨-, -, hscan⟩ := nextValue_eq_value h.width h.re_le h.mod_eq hnext
      rw [hscan, Option.map_eq_some_iff] at hr
      obtain ⟨r', hr', rfl⟩ := hr
      obtain ⟨hv, hfits'⟩ := List.forall_mem_cons.mp hfits
      obtain ⟨u, hread, hend⟩ := ih (h.after_value hnext) hr' hfits' (Nat.lt_of_succ_lt_succ hfuel)
      refine ⟨u, ?_, hend⟩
      rw [readUntilEos_of_body_ok fuel h.fault_eq (h.opVwiDec_eq_ok.mpr (.inl ⟨v, q, hnext, hv, rfl⟩)), hread]
      rfl
    | endOfStream q =>
      rw [scanGroups_of_nextValue_endOfStream hnext] at hr
      cases hr
      refine ⟨(s.setV 0).setCursor re.toNat 0 true, ?_, ?_, rfl, rfl, h.fault_eq⟩
      · rw [readUntilEos_of_body_ok fuel h.fault_eq (h.opVwiDec_eq_ok.mpr (.inr ⟨q, hnext, rfl⟩))]
        rfl
      · exact congrArg (fun t : State => t.regs.si) ((s.setV 0).setCursor_toNat re 0 true)
    | truncated =>
      rw [scanGroups_of_nextValue_truncated hnext] at hr
      cases hr

/-- Readings that reach the end have read the integers ahead, and each of these fits. -/
theorem AtBit.scanGroups_of_readUntilEos {fuel : Nat} {r : List Nat} (h : AtBit cfg buf re n p s)
    (hread : readUntilEos fuel s = some (r, u)) :
    scanGroups n.toNat (groupsFrom buf re.toNat p n.toNat) = some r ∧ ∀ v ∈ r, fitsVBits cfg v = true := by
  induction fuel generalizing p s r with
  | zero => cases hread
  | succ fuel ih =>
    obtain ⟨t, hok, hrest⟩ := readUntilEos_succ_eq_some h.fault_eq hread
    rcases h.opVwiDec_eq_ok.mp hok with ⟨v, q, hnext, hv, rfl⟩ | ⟨q, hnext, rfl⟩
    · obtain ⟨-, -, hscan⟩ := nextValue_eq_value h.width h.re_le h.mod_eq hnext
      rcases hrest with ⟨heos, -⟩ | ⟨-, r', hread', rfl⟩
      · cases heos
      · obtain ⟨hr', hfits⟩ := ih (h.after_value hnext) hread'
        rw [hscan, hr']
        exact ⟨rfl, List.forall_mem_cons.mpr ⟨hv, hfits⟩⟩
    · rcases hrest with ⟨-, rfl⟩ | ⟨heos, -⟩
      · exact ⟨scanGroups_of_nextValue_endOfStream hnext, by simp⟩
      · cases heos

end Sys2Proof.Machine
end

section
/-! PROOFS. The statements about the variable-width integer codec and the bitstream chunker
(40_vwi_codec_and_chunker.md). -/

namespace Sys2Proof.Proofs.CodecFamily

open Sys2Proof Sys2Proof.Machine

/-- Settles O18: the code is `k - 1` zeros and the `k` groups of the value, so each clause is a fact of one part. -/
theorem chopIsTheShortestCode : Obligations.ChopIsTheShortestCode := by
  intro v n hv hn
  obtain ⟨hpos, hlow, hhigh⟩ := codeWidth_bounds hn hv
  refine ⟨hpos, hlow, hhigh, chop_length hn hv, fun g => lt_of_mem_chop, fun j => chop_getElem?_zero,
    fun j => chop_getElem?_value, chop_getElem?_ne_zero hn hv, ?_, ?_⟩
  · exact (congrArg (groupsValue n) (chop_drop v n)).trans (groupsValue_code hn hv)
  · rintro rfl hbyte
    exact chop_eight hv hbyte

/-- Settles O19: the groups of the packed bytes are the groups packed, with zeros after them. -/
theorem packGroupsPlacesEveryGroup : Obligations.PackGroupsPlacesEveryGroup := by
  intro n gs hn hgs
  have hlen := packGroups_length hn hgs
  refine ⟨hlen, fun j hj => ?_, fun j hj hend => ?_, fun B p _ _ => rfl⟩
  · have hend : (j + 1) * n ≤ 8 * (packGroups gs n).length := by
      obtain ⟨-, -, hle⟩ := ceilDiv_bounds (a := gs.length * n) (b := 8) (Nat.mul_pos (by omega) hn.pos) (by decide)
      rw [hlen]
      exact (Nat.mul_le_mul_right n hj).trans hle
    rw [group_packGroups hn hgs hend, List.getD_eq_getElem _ _ hj]
  · rw [group_packGroups hn hgs hend, List.getD_eq_default _ _ hj]

/-- Settles O20: the groups ahead are the zero groups, and then nothing or a group that is not zero. -/
theorem nextValueReadsOneCode : Obligations.NextValueReadsOneCode := by
  intro B E p n z hn hE hp hz hzero
  have hsplit := groupsFrom_of_zeros hn hE hp hz hzero
  have hq : (p + z * n) % n = 0 := by rw [Nat.add_mul_mod_self_right, hp]
  refine ⟨fun hend => ?_, fun hlt hne => ?_⟩
  · rw [hend, groupsFrom_end hn hE, List.append_nil] at hsplit
    rw [nextValue, hsplit, scanFrom_zeros]
  · have hcons := groupsFrom_eq_cons hn hE hq hlt
    have hlen := groupsFrom_length_mul hn hE hq
    rw [hcons, List.length_cons, Nat.succ_mul] at hlen
    have hbits : p + (2 * z + 1) * n = p + z * n + n + z * n := by ring
    refine ⟨fun hfits => ?_, fun hover => ?_⟩
    · have hle : z ≤ (groupsFrom B E (p + z * n + n) n).length := by
        refine Nat.le_of_mul_le_mul_right ?_ hn.pos
        omega
      have hcode : p + z * n + (z + 1) * n ≤ 8 * E := by
        rw [Nat.succ_mul]
        omega
      have hpos (j : Nat) : p + (z + j) * n = p + z * n + j * n := by ring
      rw [nextValue, hsplit, hcons, scanFrom_eq_value hne hle, ← hcons, groupsFrom_take hn hE hq hcode]
      simp only [hpos]
    · have hgt : (groupsFrom B E (p + z * n + n) n).length < z := by
        refine Nat.lt_of_mul_lt_mul_right (a := n) ?_
        omega
      rw [nextValue, hsplit, hcons, scanFrom_eq_truncated hne hgt]

/-- Settles O21: the groups of the packed bytes are the codes of the sequence with zeros after them, and reading
integers from these gives the sequence. -/
theorem unpackingAPackedSequenceGivesItBack : Obligations.UnpackingAPackedSequenceGivesItBack := by
  intro n seq hn hseq
  have hcodes : ∀ g ∈ chopAll seq n, g < 2 ^ n := by
    intro g hg
    obtain ⟨v, -, hgv⟩ := List.mem_flatMap.mp hg
    exact lt_of_mem_chop hgv
  obtain ⟨pad, -, hgroups⟩ := groupsOf_packGroups hn hcodes
  have hfrom : groupsFrom (packSeq seq n) (packSeq seq n).length (8 * 0) n = chopAll seq n ++ List.replicate pad 0 := by
    rw [groupsFrom, List.take_length, Nat.mul_zero, Nat.zero_div, List.drop_zero, packSeq, hgroups]
  rw [unpackSeq_eq_scanGroups, hfrom, scanGroups_chopAll hn hseq]

/-- Settles O22: the tests of the body in its order. -/
theorem vwiEncResult : Obligations.VwiEncResult := by
  refine ⟨fun s hs hinvalid => exec_of_operand_invalid hs (by simpa [readSet, State.place, Slot.map] using hinvalid),
    fun s v n hs hv hn => ⟨fun hw => ?_, fun hw hzero => ?_, fun hw hpos => ?_⟩⟩
  · refine exec_of_body_error .badChunkWidth hs ?_
    simp only [opBody, opVwiEnc, hv, hn, Slot.read_put, ok_bind, error_bind, require_neg hw]
  · refine exec_of_body_error .zeroValue hs ?_
    have hnot : ¬1 ≤ v := by omega
    simp only [opBody, opVwiEnc, hv, hn, Slot.read_put, ok_bind, error_bind, require_pos hw, require_neg hnot]
  · exact exec_of_body_ok hs (opVwiEnc_eq_ok.mpr ⟨v, n, hv, hn, hw, hpos, rfl⟩)

/-- Settles O23: the tests of the body in its order, and then the three answers of `nextValue`. -/
theorem vwiDecResult : Obligations.VwiDecResult := by
  refine ⟨fun s hs hinvalid => exec_of_operand_invalid hs (by simpa [readSet, State.place, Slot.map] using hinvalid),
    fun s buf re si bi n hs hbuf hre hsi hbi hn => ⟨fun hw => ?_, fun hw hcur => ?_,
      fun hw hcur => ⟨fun v p hnext => ⟨fun hwide => ?_, fun hfits => ?_⟩, fun p hnext => ?_, fun hnext => ?_⟩⟩⟩
  · refine exec_of_body_error .badChunkWidth hs ?_
    simp only [opBody, opVwiDec, hbuf, hre, hsi, hbi, hn, Slot.read_put, ok_bind, error_bind, require_neg hw]
  · refine exec_of_body_error .cursorRange hs ?_
    simp only [opBody, opVwiDec, hbuf, hre, hsi, hbi, hn, Slot.read_put, ok_bind, error_bind, require_bind_require,
      require_pos hw, require_neg hcur]
  · refine exec_of_body_error .valueTooWide hs ?_
    have hnot : ¬fitsVBits s.cfg v = true := by simp [hwide]
    simp only [opBody, opVwiDec, hbuf, hre, hsi, hbi, hn, Slot.read_put, ok_bind, error_bind, require_bind_require,
      require_pos hw, require_pos hcur, hnext, require_neg hnot]
  · obtain ⟨hE, hin, hbit⟩ := hcur
    exact exec_of_body_ok hs (opVwiDec_eq_ok.mpr ⟨buf, re, si, bi, n, hbuf, hre, hsi, hbi, hn, hw, hE, hin, hbit,
      .inl ⟨v, p, hnext, hfits, rfl⟩⟩)
  · obtain ⟨hE, hin, hbit⟩ := hcur
    rw [exec_of_body_ok (i := .vwiDec) hs (opVwiDec_eq_ok.mpr
      ⟨buf, re, si, bi, n, hbuf, hre, hsi, hbi, hn, hw, hE, hin, hbit, .inr ⟨p, hnext, rfl⟩⟩)]
    exact congrArg Host.Outcome.next ((s.setV 0).setCursor_toNat re 0 true)
  · refine exec_of_body_error .malformedContainer hs ?_
    simp only [opBody, opVwiDec, hbuf, hre, hsi, hbi, hn, Slot.read_put, ok_bind, require_bind_require,
      require_pos hw, require_pos hcur, hnext]

/-- Settles O24: the tests of the body in its order. -/
theorem chkPackResult : Obligations.ChkPackResult := by
  refine ⟨fun s hs hinvalid => exec_of_operand_invalid hs (by simpa [readSet, State.place, Slot.map] using hinvalid),
    fun s sym n hs hsym hn => ⟨fun hw => ?_, fun hw ⟨g, hg, hwide⟩ => ?_, fun hw hfits => ?_⟩⟩
  · refine exec_of_body_error .badChunkWidth hs ?_
    simp only [opBody, opChkPack, hsym, hn, Slot.read_put, ok_bind, error_bind, require_neg hw]
  · refine exec_of_body_error .symbolRange hs ?_
    have hnot : ¬∀ g ∈ sym, g < 2 ^ n.toNat := fun h => absurd (h g hg) (not_lt.mpr hwide)
    simp only [opBody, opChkPack, hsym, hn, Slot.read_put, ok_bind, error_bind, require_pos hw, require_neg hnot]
  · exact exec_of_body_ok hs (opChkPack_eq_ok.mpr ⟨sym, n, hsym, hn, hw, hfits, rfl⟩)

/-- Settles O25: at the end the cursor stays, and elsewhere it moves to the next group, in its byte or at the start of
the next one. -/
theorem chkGetResult : Obligations.ChkGetResult := by
  refine ⟨fun s hs hinvalid => exec_of_operand_invalid hs (by simpa [readSet, State.place, Slot.map] using hinvalid),
    fun s buf re si bi n hs hbuf hre hsi hbi hn => ⟨fun hw => ?_, fun hw hcur => ?_,
      fun hw ⟨hE, hin, hbit⟩ hend => ?_, fun hw ⟨hE, hin, hbit⟩ hnot => ?_⟩⟩
  · refine exec_of_body_error .badChunkWidth hs ?_
    simp only [opBody, opChkGet, hbuf, hre, hsi, hbi, hn, Slot.read_put, ok_bind, error_bind, require_neg hw]
  · refine exec_of_body_error .cursorRange hs ?_
    simp only [opBody, opChkGet, hbuf, hre, hsi, hbi, hn, Slot.read_put, ok_bind, error_bind, require_bind_require,
      require_pos hw, require_neg hcur]
  · have hexec := exec_of_body_ok (i := .chkGet) hs
      (opChkGet_eq_ok.mpr ⟨buf, re, si, bi, n, hbuf, hre, hsi, hbi, hn, hw, hE, hin, hbit, rfl⟩)
    rw [if_pos hend, State.setCursor_toNat] at hexec
    rw [hexec, ← hsi, ← hbi]
    rfl
  · have hexec := exec_of_body_ok (i := .chkGet) hs
      (opChkGet_eq_ok.mpr ⟨buf, re, si, bi, n, hbuf, hre, hsi, hbi, hn, hw, hE, hin, hbit, rfl⟩)
    rw [if_neg hnot, group_cursor] at hexec
    have hlt : si.toNat < re.toNat := hin.resolve_right fun ⟨h, _⟩ => hnot h
    have hre17 := re.isLt
    have hle := cursor_add_le hw bi hbit
    by_cases hfull : bi.toNat + n.toNat = 8
    · rw [if_pos hfull] at hexec
      refine ⟨BitVec.ofNat 17 (si.toNat + 1), 0, ?_, hexec⟩
      have hsi' : (BitVec.ofNat 17 (si.toNat + 1)).toNat = si.toNat + 1 :=
        Nat.mod_eq_of_lt (by omega)
      have hzero : (0 : BitVec 3).toNat = 0 := rfl
      rw [hsi', hzero]
      omega
    · rw [if_neg hfull] at hexec
      refine ⟨BitVec.ofNat 17 si.toNat, BitVec.ofNat 3 (bi.toNat + n.toNat), ?_, hexec⟩
      have hbi' : (BitVec.ofNat 3 (bi.toNat + n.toNat)).toNat = bi.toNat + n.toNat := Nat.mod_eq_of_lt (by omega)
      rw [hbi', BitVec.ofNat_toNat, BitVec.setWidth_eq]
      omega

/-- Settles O26: the tests of the body in its order. -/
theorem seqPackResult : Obligations.SeqPackResult := by
  refine ⟨fun s hs hinvalid => exec_of_operand_invalid hs (by simpa [readSet, State.place, Slot.map] using hinvalid),
    fun s run n hs hrun hn => ⟨fun hw => ?_, fun hw hzero => ?_, fun hw hzero => ?_⟩⟩
  · refine exec_of_body_error .badChunkWidth hs ?_
    simp only [opBody, opSeqPack, hrun, hn, Slot.read_put, ok_bind, error_bind, require_neg hw]
  · refine exec_of_body_error .zeroValue hs ?_
    have hnot : ¬∀ r ∈ run, 1 ≤ r := fun h => absurd (h 0 hzero) (by decide)
    simp only [opBody, opSeqPack, hrun, hn, Slot.read_put, ok_bind, error_bind, require_pos hw, require_neg hnot]
  · have hpos : ∀ r ∈ run, 1 ≤ r := fun r hr => Nat.one_le_iff_ne_zero.mpr fun h => hzero (h ▸ hr)
    exact exec_of_body_ok hs (opSeqPack_eq_ok.mpr ⟨run, n, hrun, hn, hw, hpos, rfl⟩)

/-- Settles O27: the tests of the body in its order. -/
theorem seqUnpackResult : Obligations.SeqUnpackResult := by
  refine ⟨fun s hs hinvalid => exec_of_operand_invalid hs (by simpa [readSet, State.place, Slot.map] using hinvalid),
    fun s buf rb re n hs hbuf hrb hre hn => ⟨fun hw => ?_, fun hw hwin => ?_,
      fun hw hwin => ⟨fun hcut => ?_, fun r hread => ⟨fun ⟨v, hv, hwide⟩ => ?_, fun hfits => ?_⟩⟩⟩⟩
  · refine exec_of_body_error .badChunkWidth hs ?_
    simp only [opBody, opSeqUnpack, hbuf, hrb, hre, hn, Slot.read_put, ok_bind, error_bind, require_neg hw]
  · refine exec_of_body_error .cursorRange hs ?_
    simp only [opBody, opSeqUnpack, hbuf, hrb, hre, hn, Slot.read_put, ok_bind, error_bind, require_pos hw,
      require_neg hwin]
  · refine exec_of_body_error .malformedContainer hs ?_
    simp only [opBody, opSeqUnpack, hbuf, hrb, hre, hn, Slot.read_put, ok_bind, require_pos hw, require_pos hwin, hcut]
  · refine exec_of_body_error .valueTooWide hs ?_
    have hnot : ¬∀ v ∈ r, fitsVBits s.cfg v = true := fun h => absurd (h v hv) (by simp [hwide])
    simp only [opBody, opSeqUnpack, hbuf, hrb, hre, hn, Slot.read_put, ok_bind, error_bind, require_pos hw,
      require_pos hwin, hread, require_neg hnot]
  · rw [exec_of_body_ok (i := .seqUnpack) hs
      (opSeqUnpack_eq_ok.mpr ⟨buf, rb, re, n, r, hbuf, hrb, hre, hn, hw, hwin, hread, hfits, rfl⟩)]
    exact congrArg Host.Outcome.next ((s.setRun r).setCursor_toNat re 0 true)

/-- Settles O29: the tests of the body in its order; every byte passes them at width 8. -/
theorem fixPackResult : Obligations.FixPackResult := by
  have hpack (s : State) (vals : List Byte) (vn : BitVec 4) (hs : s.fault = 0) (hvals : s.mem.vals = .put vals)
      (hvn : s.regs.vn = .put vn) (hw : isChunkWidth vn.toNat) (hfits : ∀ x ∈ vals, x.toNat < 2 ^ vn.toNat) :
      exec .fixPack s = .next { s with mem.valb := .put (packGroups (vals.map BitVec.toNat) vn.toNat) } :=
    exec_of_body_ok hs (opFixPack_eq_ok.mpr ⟨vals, vn, hvals, hvn, hw, hfits, rfl⟩)
  refine ⟨fun s hs hinvalid => exec_of_operand_invalid hs (by simpa [readSet, State.place, Slot.map] using hinvalid),
    fun s vals vn hs hvals hvn => ⟨fun hw => ?_, fun hw ⟨x, hx, hwide⟩ => ?_, hpack s vals vn hs hvals hvn, ?_⟩⟩
  · refine exec_of_body_error .badChunkWidth hs ?_
    simp only [opBody, opFixPack, hvals, hvn, Slot.read_put, ok_bind, error_bind, require_neg hw]
  · refine exec_of_body_error .symbolRange hs ?_
    have hnot : ¬∀ x ∈ vals, x.toNat < 2 ^ vn.toNat := fun h => absurd (h x hx) (not_lt.mpr hwide)
    simp only [opBody, opFixPack, hvals, hvn, Slot.read_put, ok_bind, error_bind, require_pos hw, require_neg hnot]
  · rintro rfl
    have hbytes := hpack s vals 8 hs hvals hvn (by decide) fun x _ => x.isLt
    rwa [show (8 : BitVec 4).toNat = 8 from rfl, packGroups_eight] at hbytes

/-- Settles O30: the tests of the body in its order; a window of the right length holds the groups of all runs. -/
theorem fixUnpackResult : Obligations.FixUnpackResult := by
  refine ⟨fun s hs hinvalid => exec_of_operand_invalid hs (by simpa [readSet, State.place, Slot.map] using hinvalid),
    fun s buf rb re vn run hs hbuf hrb hre hvn hrun => ⟨fun hw => ?_, fun hw hwin => ?_, fun hw hwin hlen => ?_,
      fun hw hwin hlen => ?_⟩⟩
  · refine exec_of_body_error .badChunkWidth hs ?_
    simp only [opBody, opFixUnpack, hbuf, hrb, hre, hvn, hrun, Slot.read_put, ok_bind, error_bind, require_neg hw]
  · refine exec_of_body_error .cursorRange hs ?_
    simp only [opBody, opFixUnpack, hbuf, hrb, hre, hvn, hrun, Slot.read_put, ok_bind, error_bind, require_pos hw,
      require_neg hwin]
  · refine exec_of_body_error .malformedContainer hs ?_
    simp only [opBody, opFixUnpack, hbuf, hrb, hre, hvn, hrun, Slot.read_put, ok_bind, error_bind, require_pos hw,
      require_pos hwin, require_neg hlen]
  · obtain ⟨hS, hE⟩ := hwin
    rw [exec_of_body_ok (i := .fixUnpack) hs
      (opFixUnpack_eq_ok.mpr ⟨buf, rb, re, vn, run, hbuf, hrb, hre, hvn, hrun, hw, ⟨hS, hE⟩, hlen, rfl⟩),
      groupsFrom_window hw hE hS hlen, List.map_map]
    rfl

/-- Settles O31: the tests of the body in its order. -/
theorem curSetResult : Obligations.CurSetResult := by
  refine ⟨fun s hs hinvalid => exec_of_operand_invalid hs (by simpa [readSet, State.place, Slot.map] using hinvalid),
    fun s buf rb re hs hbuf hrb hre => ⟨fun hwin => ?_, fun hwin => ?_⟩⟩
  · refine exec_of_body_error .cursorRange hs ?_
    simp only [opBody, opCurSet, hbuf, hrb, hre, Slot.read_put, ok_bind, error_bind, require_neg hwin]
  · rw [exec_of_body_ok (i := .curSet) hs (opCurSet_eq_ok.mpr ⟨buf, rb, re, hbuf, hrb, hre, hwin, rfl⟩)]
    exact congrArg Host.Outcome.next (s.setCursor_toNat rb 0 false)

/-- Settles O28: both read the integers of the window, from the cursor that `CUR.SET` places. -/
theorem seqUnpackIsRepeatedVwiDec : Obligations.SeqUnpackIsRepeatedVwiDec := by
  refine ⟨fun s t hs hexec ht => ?_, fun s a u fuel r hs hexec ha hread => ?_⟩
  · have hbody : opSeqUnpack s = .ok t := (exec_eq_next_iff_body_ok (i := .seqUnpack) hs).mp ⟨hexec, ht⟩
    obtain ⟨buf, rb, re, n, r, hbuf, hrb, hre, hn, hw, hwin, hr, hfits, rfl⟩ := opSeqUnpack_eq_ok.mp hbody
    have hcur : opBody .curSet s = .ok (s.setCursor rb.toNat 0 false) :=
      opCurSet_eq_ok.mpr ⟨buf, rb, re, hbuf, hrb, hre, hwin, rfl⟩
    have hat := AtBit.after_curSet hs hbuf hre hn hw hwin
    have hfuel : r.length < 8 * buf.length + 1 := by
      have hlen := length_le_of_scanGroups hr
      have hbits := groupsFrom_length_mul hw hat.re_le hat.mod_eq
      have hle := Nat.le_mul_of_pos_right (groupsFrom buf re.toNat (8 * rb.toNat) n.toNat).length hw.pos
      have hbuf_le := hat.re_le
      omega
    obtain ⟨u, hread, hsi, hbi, heos, hfault⟩ := hat.readUntilEos_of_scanGroups hr hfits hfuel
    have hend : (s.setRun r).setCursor re.toNat 0 true = _ := (s.setRun r).setCursor_toNat re 0 true
    rw [hend]
    refine ⟨_, u, exec_of_body_ok hs hcur, hs, ?_, hsi, hbi, heos, rfl, hfault⟩
    rw [hbuf]
    exact hread
  · have hcur : opCurSet s = .ok a := (exec_eq_next_iff_body_ok (i := .curSet) hs).mp ⟨hexec, ha⟩
    obtain ⟨buf, rb, re, hbuf, hrb, hre, hwin, rfl⟩ := opCurSet_eq_ok.mp hcur
    cases fuel with
    | zero => cases hread
    | succ fuel =>
      obtain ⟨t, hfirst, -⟩ := readUntilEos_succ_eq_some ha hread
      obtain ⟨-, -, -, -, n, -, -, -, -, hn, hw, -⟩ := opVwiDec_eq_ok.mp hfirst
      obtain ⟨hr, hfits⟩ := (AtBit.after_curSet hs hbuf hre hn hw hwin).scanGroups_of_readUntilEos hread
      have hbody : opBody .seqUnpack s = .ok ((s.setRun r).setCursor re.toNat 0 true) :=
        opSeqUnpack_eq_ok.mpr ⟨buf, rb, re, n, r, hbuf, hrb, hre, hn, hw, hwin, hr, hfits, rfl⟩
      rw [exec_of_body_ok hs hbody, hre]
      exact congrArg Host.Outcome.next ((s.setRun r).setCursor_toNat re 0 true)

end Sys2Proof.Proofs.CodecFamily
end

section
/-! SUPPORT. Row-major grids: the elements of a list whose rows are replaced or padded (00_scope.md R14), and of one
that is toggled in a checkerboard (41_pixel_classifier_quantizer.md R180 to R182). -/

namespace Sys2Proof.Machine

/-- Place `(x, y)` of a grid, found again from its index. -/
theorem index_mod_div {w x : Nat} (hx : x < w) (y : Nat) : (y * w + x) % w = x ∧ (y * w + x) / w = y := by
  rw [Nat.mul_comm, Nat.mul_add_mod, Nat.mul_add_div (by omega), Nat.mod_eq_of_lt hx, Nat.div_eq_of_lt hx]
  exact ⟨rfl, Nat.add_zero y⟩

/-- Row `y` of a list whose rows are replaced is the replacement of row `y` of the list. -/
theorem pixelAt_mapRows {α β : Type} {w m : Nat} {f : List α → List β}
    (hf : ∀ row : List α, row.length = w → (f row).length = m) {h x y : Nat} {xs : List α} (hxs : xs.length = w * h)
    (hx : x < m) (hy : y < h) : pixelAt (mapRows w f h xs) m x y = (f ((xs.drop (y * w)).take w))[x]? := by
  induction h generalizing xs y with
  | zero => exact absurd hy (Nat.not_lt_zero y)
  | succ h ih =>
    rw [Nat.mul_succ] at hxs
    have hrow : (f (xs.take w)).length = m := hf _ (by rw [List.length_take]; omega)
    rw [mapRows_succ, pixelAt]
    cases y with
    | zero => rw [Nat.zero_mul, Nat.zero_add, List.getElem?_append_left (hrow ▸ hx), Nat.zero_mul, List.drop_zero]
    | succ y =>
      have hskip : (y + 1) * m + x - m = y * m + x := by rw [Nat.succ_mul]; omega
      have hle : m ≤ (y + 1) * m + x := by rw [Nat.succ_mul]; omega
      rw [List.getElem?_append_right (hrow ▸ hle), hrow, hskip]
      refine (ih (by rw [List.length_drop]; omega) (Nat.lt_of_succ_lt_succ hy)).trans ?_
      rw [List.drop_drop, Nat.succ_mul, Nat.add_comm w]

/-- An element of row `y` of a list. -/
theorem getElem?_row {α : Type} {w x : Nat} (hx : x < w) (xs : List α) (y : Nat) :
    ((xs.drop (y * w)).take w)[x]? = pixelAt xs w x y := by
  rw [List.getElem?_take_of_lt hx, List.getElem?_drop, pixelAt]

/-- A place inside a grid holds an element, which is one of the list. -/
theorem exists_pixelAt_eq_some {α : Type} {w h x y : Nat} {xs : List α} (hxs : xs.length = w * h) (hx : x < w)
    (hy : y < h) : ∃ c ∈ xs, pixelAt xs w x y = some c := by
  have hlt : y * w + x < xs.length := by
    calc y * w + x < (y + 1) * w := by rw [Nat.succ_mul]; omega
      _ ≤ h * w := Nat.mul_le_mul_right w hy
      _ = xs.length := by rw [hxs, Nat.mul_comm]
  exact ⟨_, List.getElem_mem hlt, List.getElem?_eq_getElem hlt⟩

section Pad

variable {w pw : Nat} {f : Byte → Byte}

theorem padRow_length (hle : w ≤ pw) (row : List Byte) (h : row.length = w) : (padRow w pw f row).length = pw := by
  simp [padRow, h, hle]

/-- Padding the rows of `w · h` bytes makes `pw · h` of them. -/
theorem padRows_length {h : Nat} {pk : List Byte} (hle : w ≤ pw) (hpk : pk.length = w * h) :
    (mapRows w (padRow w pw f) h pk).length = pw * h :=
  mapRows_length (padRow_length hle) h pk hpk

/-- An element of a padded row: that of the row seen through `f`, and 0 beyond the width (R180, R181). -/
theorem pixelAt_padRows {h x y : Nat} {pk : List Byte} (hle : w ≤ pw) (hpk : pk.length = w * h) (hx : x < pw)
    (hy : y < h) :
    pixelAt (mapRows w (padRow w pw f) h pk) pw x y = if x < w then (pixelAt pk w x y).map f else some 0 := by
  have hrow : ((pk.drop (y * w)).take w).length = w := by
    have hend : (y + 1) * w ≤ h * w := Nat.mul_le_mul_right w hy
    rw [Nat.succ_mul, Nat.mul_comm h] at hend
    rw [List.length_take, List.length_drop]
    omega
  rw [pixelAt_mapRows (padRow_length hle) hpk hx hy, padRow, List.getElem?_append, List.length_map, hrow]
  split
  case isTrue hlt => rw [List.getElem?_map, getElem?_row hlt]
  case isFalse hge => exact List.getElem?_replicate_of_lt (by omega)

end Pad

section Checkerboard

variable {pw : Nat} {str : List Byte}

@[simp] theorem unscreen_length (pw : Nat) (str : List Byte) : (unscreen pw str).length = str.length := by
  simp [unscreen]

theorem unscreen_getElem? (pw : Nat) (str : List Byte) (i : Nat) :
    (unscreen pw str)[i]? = str[i]?.map (fun b => if oddPlace pw i then b ^^^ 255 else b) := by
  simp only [unscreen, List.getElem?_map, List.getElem?_zipIdx, Option.map_map, Nat.zero_add]
  rfl

theorem oddPlace_index {x : Nat} (hx : x < pw) (y : Nat) : oddPlace pw (y * pw + x) = decide ((x ^^^ y) % 2 = 1) := by
  obtain ⟨hmod, hdiv⟩ := index_mod_div hx y
  rw [oddPlace, hmod, hdiv]

/-- The toggle at place `(x, y)` (R182). -/
theorem pixelAt_unscreen {x : Nat} (hx : x < pw) (y : Nat) (str : List Byte) :
    pixelAt (unscreen pw str) pw x y =
      (pixelAt str pw x y).map (fun b => if (x ^^^ y) % 2 = 1 then b ^^^ 255 else b) := by
  simp only [pixelAt, unscreen_getElem?, oddPlace_index hx, decide_eq_true_eq]

/-- Toggling twice gives the stream back. -/
@[simp] theorem unscreen_unscreen (pw : Nat) (str : List Byte) : unscreen pw (unscreen pw str) = str := by
  refine List.ext_getElem? fun i => ?_
  rw [unscreen_getElem?, unscreen_getElem?, Option.map_map]
  cases oddPlace pw i <;> simp [Function.comp_def]

end Checkerboard

end Sys2Proof.Machine
end

section
/-! SUPPORT. The arithmetic of the classifier and the quantizer: padded widths, levels, the packed byte, the first 16
colours and the choice of the format (41_pixel_classifier_quantizer.md R172 to R178). -/

namespace Sys2Proof.Machine

/-- A register holds a number from 1 on exactly where its bits are not all zero. -/
theorem one_le_toNat_iff {n : Nat} {x : BitVec n} : 1 ≤ x.toNat ↔ x ≠ 0 := by
  simp [Nat.one_le_iff_ne_zero, ← BitVec.toNat_inj]

theorem one_le_toNat_three_iff {l m n : Nat} {x : BitVec l} {y : BitVec m} {z : BitVec n} :
    1 ≤ x.toNat ∧ 1 ≤ y.toNat ∧ 1 ≤ z.toNat ↔ ¬(x = 0 ∨ y = 0 ∨ z = 0) := by
  simp only [one_le_toNat_iff, not_or, ne_eq]

/-- A conditional read of a place that holds `a` where it is read. -/
theorem Slot.exists_readIf_eq_ok {α : Type} {x : Slot α} {p : Prop} [Decidable p] {a : α} (d : α)
    (h : p → x = .put a) : ∃ b, x.readIf p d = .ok b ∧ (p → b = a) := by
  by_cases hp : p
  · exact ⟨a, readIf_eq_ok.mpr (.inl ⟨hp, h hp⟩), fun _ => rfl⟩
  · exact ⟨d, readIf_neg hp, fun h => absurd h hp⟩

/-- `ceil(a / b) · b` is the least multiple of `b` that is at least `a` (00_scope.md R13). -/
theorem ceilDiv_mul_bounds (a : Nat) {b : Nat} (hb : 0 < b) : a ≤ ceilDiv a b * b ∧ ceilDiv a b * b < a + b := by
  have hmod := Nat.div_add_mod' (a + b - 1) b
  have hlt := Nat.mod_lt (a + b - 1) hb
  rw [ceilDiv]
  omega

/-- Format 0 pads to whole bytes and then to whole words of 32 pixels (R178). -/
theorem paddedWidth_zero (w : Nat) : paddedWidth 0 w = ceilDiv (ceilDiv w 8 * 8) 32 * 32 := rfl

/-- The other formats pad to whole bytes (R178). -/
theorem paddedWidth_of_ne_zero {f : Nat} (hf : f ≠ 0) (w : Nat) :
    paddedWidth f w = ceilDiv w (pixelsPerByte f) * pixelsPerByte f := if_neg hf

section Quantizer

variable {cfg : Config}

theorem level_eq_countP (cfg : Config) (c : Byte) :
    level cfg c = [cfg.t1, cfg.t2, cfg.t3].countP (fun t => t ≤ c) := by
  simp only [level, List.countP_cons, List.countP_nil, decide_eq_true_eq, BitVec.le_def]
  omega

theorem level_le (cfg : Config) (c : Byte) : level cfg c ≤ 3 := by
  rw [level_eq_countP]
  exact List.countP_le_length

/-- Legal thresholds separate the four channel values 0, 85, 170 and 255 (R173). -/
theorem level_levelValue (hcfg : cfg.thresholdsOk = true) {q : Nat} (hq : q ≤ 3) : level cfg (levelValue q) = q := by
  obtain ⟨h1, h1', h2, h2', h3⟩ := of_decide_eq_true hcfg
  have hlt := cfg.t3.isLt
  have hvalue : (levelValue q).toNat = 85 * q := Nat.mod_eq_of_lt (by omega)
  rw [level, hvalue]
  split <;> split <;> split <;> omega

/-- Under legal thresholds quantizing a second time changes nothing. -/
theorem quantPixel_quantPixel (hcfg : cfg.wf = true) (p : Pixel) :
    quantPixel cfg (quantPixel cfg p) = quantPixel cfg p := by
  simp only [Config.wf, Bool.and_eq_true] at hcfg
  obtain ⟨⟨-, hthresholds⟩, -⟩ := hcfg
  have hchannel (c : Byte) : quantChannel cfg (quantChannel cfg c) = quantChannel cfg c :=
    congrArg levelValue (level_levelValue hthresholds (level_le cfg c))
  simp only [quantPixel, hchannel]

/-- The bits of two words side by side, as a number. -/
theorem toNat_append_eq_add {m n : Nat} (x : BitVec m) (y : BitVec n) : (x ++ y).toNat = x.toNat * 2 ^ n + y.toNat := by
  rw [BitVec.toNat_append, ← Nat.shiftLeft_add_eq_or_of_lt y.isLt, Nat.shiftLeft_eq]

/-- The top two bits of a byte, as a number. -/
theorem toNat_topBits (c : Byte) : (c.extractLsb' 6 2).toNat = c.toNat / 64 := by
  have hlt := c.isLt
  rw [BitVec.extractLsb'_toNat, Nat.shiftRight_eq_div_pow]
  exact Nat.mod_eq_of_lt (by omega)

/-- The packed byte holds the top two bits of alpha, red, green and blue, in this order (R174). -/
theorem packArgb8_eq_append (p : Pixel) : packArgb8 p =
    p.a.extractLsb' 6 2 ++ p.r.extractLsb' 6 2 ++ p.g.extractLsb' 6 2 ++ p.b.extractLsb' 6 2 := by
  have ha := p.a.isLt
  have hr := p.r.isLt
  have hg := p.g.isLt
  have hb := p.b.isLt
  refine BitVec.eq_of_toNat_eq ?_
  simp only [toNat_append_eq_add, toNat_topBits, packArgb8, BitVec.toNat_ofNat]
  omega

end Quantizer

section Palette

/-- The scan from the colours `pal` on: the colours that are not among them, each once, come after them; 16 are kept,
and the flag says whether there are more. -/
theorem countColors_eq {pal : List Byte} (hpal : pal.length ≤ 16) (pk : List Byte) :
    countColors pal pk = ((pal ++ (pk.filter (· ∉ pal)).eraseDups).take 16,
      decide (16 < (pal ++ (pk.filter (· ∉ pal)).eraseDups).length)) := by
  induction pk generalizing pal with
  | nil => simp [countColors, List.take_of_length_le hpal, hpal]
  | cons c pk ih =>
    rw [countColors]
    by_cases hc : c ∈ pal
    · rw [if_pos hc, ih hpal, List.filter_cons_of_neg (by simpa using hc)]
    · rw [if_neg hc, List.filter_cons_of_pos (by simpa using hc), List.eraseDups_cons, List.filter_filter]
      by_cases hfull : pal.length = 16
      · rw [if_pos hfull, List.take_left' hfull]
        simp [hfull]
      · have hrest : pk.filter (fun b => !b == c && decide (b ∉ pal)) = pk.filter (· ∉ pal ++ [c]) := by
          refine List.filter_congr fun b _ => ?_
          simp [Bool.and_comm, beq_eq_decide]
        rw [if_neg hfull, ih (by rw [List.length_append, List.length_singleton]; omega), hrest, List.append_assoc,
          List.singleton_append]

/-- The scan of a whole `PK` (R175). -/
theorem countColors_nil (pk : List Byte) :
    countColors [] pk = (pk.eraseDups.take 16, decide (16 < pk.eraseDups.length)) := by
  simpa using countColors_eq (pal := []) (Nat.zero_le 16) pk

/-- The palette holds the colours of the scan in some order, whatever `PALETTE_ORDER` is (R175). -/
theorem orderPalette_perm (cfg : Config) (pk pal : List Byte) : (orderPalette cfg pk pal).Perm pal := by
  unfold orderPalette
  split
  · rfl
  · split
    case isTrue h => exact List.isPerm_iff.mp h
    case isFalse => rfl

theorem orderPalette_of_firstOccurrence {cfg : Config} (h : cfg.paletteOrder = .firstOccurrence) (pk pal : List Byte) :
    orderPalette cfg pk pal = pal := by
  rw [orderPalette, h]

/-- The index of a colour of the palette is a place where the palette holds it (R181). -/
theorem getElem?_paletteIndex {pal : List Byte} {c : Byte} (h : c ∈ pal) : pal[paletteIndex pal c]? = some c := by
  have hidx : pal[pal.idxOf c]? = some c := List.getElem?_idxOf h
  unfold paletteIndex
  split
  · exact hidx
  · split
    case isTrue hfree => exact hfree
    case isFalse => exact hidx

theorem indexByte_of_lt {i : Nat} (h : i < 256) : indexByte i = BitVec.ofNat 8 i := if_pos h

end Palette

section Format

/-- `Color` takes format 1 for more than 16 colours. -/
theorem classify_color_tooMany (cfg : Config) (pal : List Byte) : classify cfg 1 true pal = .ok 1 := rfl

/-- `Color` takes format 0 for black and white, else the least of formats 2 to 4 that the colours fit in (R176). -/
theorem classify_color (cfg : Config) (pal : List Byte) :
    classify cfg 1 false pal = .ok (if ∀ c ∈ pal, c = 0xC0 ∨ c = 0xFF then 0
      else if pal.length ≤ 2 then 2 else if pal.length ≤ 4 then 3 else 4) := by
  simp only [classify, if_true, Bool.false_eq_true, if_false, apply_ite (Except.ok (ε := FaultCode))]

/-- `Monochrome` takes format 0 or faults (R176). -/
theorem classify_monochrome (cfg : Config) (many : Bool) (pal : List Byte) :
    classify cfg 0 many pal = if many = false ∧ ∀ c ∈ pal, (monoOf cfg c).isSome = true then .ok 0
      else .error .notMonochrome := rfl

/-- `CLS.FMT` once the format is chosen: `FMT`, `PW`, and `VN` for the formats that have a values region (R177). -/
theorem exec_clsFmt_of_classify {s : State} {var : BitVec 1} {pal : List Byte} {w : BitVec 8} {f : Nat}
    (hs : s.fault = 0) (hvar : s.regs.var = .put var) (hpal : s.mem.pal = .put pal) (hw : s.regs.w = .put w)
    (hw0 : w ≠ 0) (hne : s.tooMany = true ∨ pal ≠ []) (hf : classify s.cfg var s.tooMany pal = .ok f) (hf4 : f ≤ 4) :
    exec .clsFmt s = .next { s with
      regs.fmt := .put (BitVec.ofNat 8 f), regs.pw := .put (BitVec.ofNat 9 (paddedWidth f w.toNat)),
      regs.vn := if f = 0 then s.regs.vn else .put ([0, 8, 1, 2, 4].getD f 0) } := by
  rw [exec_of_body_ok (i := .clsFmt) hs (opClsFmt_eq_ok.mpr ⟨var, pal, w, f, hvar, hpal, hw, one_le_toNat_iff.mpr hw0,
    hne.imp_right List.length_pos_iff.mpr, hf, rfl⟩)]
  interval_cases f <;> rfl

end Format

end Sys2Proof.Machine
end

section
/-! PROOFS. The statements about the pixel classifier, the quantizer and the stream generators
(41_pixel_classifier_quantizer.md). -/

namespace Sys2Proof.Proofs.PixelFamily

open Sys2Proof Sys2Proof.Machine

/-- Settles O32: the body reads `IMG` and cleans every pixel. -/
theorem pixCleanResult : Obligations.PixCleanResult :=
  ⟨fun s hs hinvalid => exec_of_operand_invalid hs (by simpa [readSet, State.place, Slot.map] using hinvalid),
    fun _ img hs himg => exec_of_body_ok hs (opPixClean_eq_ok.mpr ⟨img, himg, rfl⟩)⟩

/-- Settles O33: the level of a channel counts the thresholds, and quantizing is idempotent under legal ones. -/
theorem pixQuantResult : Obligations.PixQuantResult := by
  have hquant (s : State) (wimg : List Pixel) (hs : s.fault = 0) (hwimg : s.mem.wimg = .put wimg) :
      exec .pixQuant s = .next { s with mem.wimg := .put (wimg.map (quantPixel s.cfg)) } :=
    exec_of_body_ok hs (opPixQuant_eq_ok.mpr ⟨wimg, hwimg, rfl⟩)
  refine ⟨fun s hs hinvalid => exec_of_operand_invalid hs (by simpa [readSet, State.place, Slot.map] using hinvalid),
    fun s wimg hs hwimg => ⟨?_, fun hcfg t ht => ?_⟩⟩
  · rw [hquant s wimg hs hwimg]
    simp only [← level_eq_countP]
    rfl
  · rw [hquant s wimg hs hwimg] at ht
    cases ht
    refine (hquant { s with mem.wimg := .put (wimg.map (quantPixel s.cfg)) } _ hs rfl).trans ?_
    simp only [List.map_map, Function.comp_def, quantPixel_quantPixel hcfg]

/-- Settles O34: the packed byte of every pixel is made of the top bits of its channels. -/
theorem pixPack8Result : Obligations.PixPack8Result := by
  refine ⟨fun s hs hinvalid => exec_of_operand_invalid hs (by simpa [readSet, State.place, Slot.map] using hinvalid),
    fun s wimg hs hwimg => ?_⟩
  simp only [← packArgb8_eq_append]
  exact exec_of_body_ok hs (opPixPack8_eq_ok.mpr ⟨wimg, hwimg, rfl⟩)

/-- Settles O35: the scan finds the first 16 colours and whether there are more; `PALETTE_ORDER` only permutes them. -/
theorem clsCountResult : Obligations.ClsCountResult := by
  refine ⟨fun s hs hinvalid => exec_of_operand_invalid hs (by simpa [readSet, State.place, Slot.map] using hinvalid),
    fun s pk hs hpk => ⟨orderPalette s.cfg pk (pk.eraseDups.take 16), ?_, orderPalette_perm s.cfg pk _,
      fun horder => orderPalette_of_firstOccurrence horder pk _⟩⟩
  rw [exec_of_body_ok (i := .clsCount) hs (opClsCount_eq_ok.mpr ⟨pk, hpk, rfl⟩), countColors_nil]
  rfl

/-- Settles O36: a width rounded up to a multiple; for format 0 first to whole bytes and then to whole words. -/
theorem paddedWidthIsTheNextMultiple : Obligations.PaddedWidthIsTheNextMultiple := by
  intro w
  have hbytes (f : Nat) (hf : f ≠ 0) (hpos : 0 < pixelsPerByte f) :
      pixelsPerByte f ∣ paddedWidth f w ∧ w ≤ paddedWidth f w ∧ paddedWidth f w < w + pixelsPerByte f := by
    rw [paddedWidth_of_ne_zero hf]
    exact ⟨Nat.dvd_mul_left _ _, ceilDiv_mul_bounds w hpos⟩
  refine ⟨?_, ?_, hbytes 2 (by decide) (by decide), hbytes 3 (by decide) (by decide), hbytes 4 (by decide) (by decide)⟩
  · have hwidth := ceilDiv_mul_bounds w (b := 8) (by decide)
    have hwords := ceilDiv_mul_bounds (ceilDiv w 8 * 8) (b := 32) (by decide)
    rw [paddedWidth_zero]
    omega
  · obtain ⟨-, hle, hlt⟩ := hbytes 1 (by decide) (by decide)
    exact le_antisymm (Nat.lt_succ_iff.mp hlt) hle

/-- Settles O37: the two tests of the body, and then the answers of `classify`. -/
theorem clsFmtResult : Obligations.ClsFmtResult := by
  refine ⟨fun s hs hinvalid => exec_of_operand_invalid hs (by simpa [readSet, State.place, Slot.map] using hinvalid),
    fun s var pal w hs hvar hpal hw => ⟨fun hzero => ?_, fun hw0 hmany hempty => ?_, fun hw0 hne => ?_⟩⟩
  · refine exec_of_body_error .zeroArea hs ?_
    have hnot : ¬1 ≤ w.toNat := fun h => one_le_toNat_iff.mp h hzero
    simp only [opBody, opClsFmt, hvar, hpal, hw, Slot.read_put, ok_bind, error_bind, require_neg hnot]
  · refine exec_of_body_error .zeroArea hs ?_
    have hnot : ¬(s.tooMany = true ∨ 1 ≤ pal.length) := by simp [hmany, hempty]
    simp only [opBody, opClsFmt, hvar, hpal, hw, Slot.read_put, ok_bind, error_bind,
      require_pos (one_le_toNat_iff.mpr hw0), require_neg hnot]
  · have hchosen {f : Nat} := exec_clsFmt_of_classify (f := f) hs hvar hpal hw hw0 hne
    refine ⟨?_, ?_, ?_, ?_, ?_, ?_, ?_⟩
    · rintro rfl hmany
      refine hchosen ?_ (by decide)
      rw [hmany, classify_color_tooMany]
    · rintro rfl hmany hbw
      refine hchosen ?_ (by decide)
      rw [hmany, classify_color, if_pos hbw]
    · rintro rfl hmany hbw h2
      refine hchosen ?_ (by decide)
      rw [hmany, classify_color, if_neg hbw, if_pos h2]
    · rintro rfl hmany hbw h2 h4
      refine hchosen ?_ (by decide)
      rw [hmany, classify_color, if_neg hbw, if_neg (not_le.mpr h2), if_pos h4]
    · rintro rfl hmany hbw h4 -
      refine hchosen ?_ (by decide)
      rw [hmany, classify_color, if_neg hbw, if_neg (by omega), if_neg (not_le.mpr h4)]
    · rintro rfl hmany hmono
      refine hchosen ?_ (by decide)
      rw [classify_monochrome, if_pos ⟨hmany, hmono⟩]
    · rintro rfl hbad
      refine exec_of_body_error .notMonochrome hs ?_
      have hnot : ¬(s.tooMany = false ∧ ∀ c ∈ pal, (monoOf s.cfg c).isSome = true) := by
        rintro ⟨hmany, hmono⟩
        rcases hbad with hmany' | ⟨c, hc, hnone⟩
        · exact absurd hmany' (by simp [hmany])
        · exact absurd (hmono c hc) (by simp [hnone])
      have hne' : s.tooMany = true ∨ 1 ≤ pal.length := hne.imp_right List.length_pos_iff.mpr
      simp only [opBody, opClsFmt, hvar, hpal, hw, Slot.read_put, ok_bind, error_bind,
        require_pos (one_le_toNat_iff.mpr hw0), require_pos hne', classify_monochrome, if_neg hnot]

/-- Settles O38: the tests of the body in its order; the stream is made of the padded rows. -/
theorem genMonoResult : Obligations.GenMonoResult := by
  refine ⟨fun s hs hinvalid => exec_of_operand_invalid hs (by simpa [readSet, State.place, Slot.map] using hinvalid),
    fun s pk w h pw fmt hs hpk hw hh hpw hfmt => ⟨fun hzero => ?_, fun hw0 hh0 hpw0 hshape => ?_,
      fun hw0 hh0 hpw0 hshape => ⟨fun ⟨c, hc, hnone⟩ => ?_, fun hmono => ?_⟩⟩⟩
  · refine exec_of_body_error .zeroArea hs ?_
    have hnot : ¬(1 ≤ w.toNat ∧ 1 ≤ h.toNat ∧ 1 ≤ pw.toNat) := fun h => one_le_toNat_three_iff.mp h hzero
    simp only [opBody, opGenMono, hpk, hw, hh, hpw, hfmt, Slot.read_put, ok_bind, error_bind, require_neg hnot]
  all_goals
    have harea : 1 ≤ w.toNat ∧ 1 ≤ h.toNat ∧ 1 ≤ pw.toNat :=
      one_le_toNat_three_iff.mpr (not_or.mpr ⟨hw0, not_or.mpr ⟨hh0, hpw0⟩⟩)
  · refine exec_of_body_error .operandShape hs ?_
    simp only [opBody, opGenMono, hpk, hw, hh, hpw, hfmt, Slot.read_put, ok_bind, error_bind, require_pos harea,
      require_neg hshape]
  · refine exec_of_body_error .notMonochrome hs ?_
    have hnot : ¬∀ c ∈ pk, (monoOf s.cfg c).isSome = true := fun hmono => absurd (hmono c hc) (by simp [hnone])
    simp only [opBody, opGenMono, hpk, hw, hh, hpw, hfmt, Slot.read_put, ok_bind, error_bind, require_pos harea,
      require_pos hshape, require_neg hnot]
  · have hexec := exec_of_body_ok (i := .genMono) hs (opGenMono_eq_ok.mpr
      ⟨pk, w, h, pw, fmt, hpk, hw, hh, hpw, hfmt, harea, hshape, hmono, rfl⟩)
    obtain ⟨-, hle, hlen⟩ := hshape
    refine ⟨_, hexec, padRows_length hle hlen, fun x y hx hy => ?_⟩
    rw [pixelAt_padRows hle hlen hx hy]
    split
    case isTrue hxw =>
      obtain ⟨c, hc, hpixel⟩ := exists_pixelAt_eq_some hlen hxw hy
      obtain ⟨b, hb⟩ := Option.isSome_iff_exists.mp (hmono c hc)
      simp [hpixel, hb]
    case isFalse => rfl

/-- Settles O39: the tests of the body in its order; the stream is made of the padded rows, and the index of a colour
is a place of it in the palette. -/
theorem genValResult : Obligations.GenValResult := by
  refine ⟨fun s hs hinvalid => exec_of_operand_invalid hs ?_,
    fun s pk w h pw fmt pal hs hpk hw hh hpw hfmt hpal => ?_⟩
  · refine fun hvalid => hinvalid ?_
    simp only [readSet, List.forall_mem_append, List.forall_mem_cons] at hvalid
    obtain ⟨⟨hpk, hfmt, hw, hh, hpw, -⟩, hpal⟩ := hvalid
    refine ⟨hpk, hfmt, hw, hh, hpw, fun h2 => ?_⟩
    exact hpal (.buf .pal) (by simp [h2])
  · obtain ⟨pal', hread, hpal'⟩ := Slot.exists_readIf_eq_ok [] hpal
    refine ⟨fun hzero => ?_, fun hw0 hh0 hpw0 hshape => ?_,
      fun hw0 hh0 hpw0 hshape => ⟨fun h2 ⟨c, hc, hnone⟩ => ?_, fun hmem => ?_⟩⟩
    · refine exec_of_body_error .zeroArea hs ?_
      have hnot : ¬(1 ≤ w.toNat ∧ 1 ≤ h.toNat ∧ 1 ≤ pw.toNat) := fun h => one_le_toNat_three_iff.mp h hzero
      simp only [opBody, opGenVal, hpk, hw, hh, hpw, hfmt, hread, Slot.read_put, ok_bind, error_bind,
        require_neg hnot]
    all_goals
      have harea : 1 ≤ w.toNat ∧ 1 ≤ h.toNat ∧ 1 ≤ pw.toNat :=
        one_le_toNat_three_iff.mpr (not_or.mpr ⟨hw0, not_or.mpr ⟨hh0, hpw0⟩⟩)
      rw [← and_assoc] at hshape
    · refine exec_of_body_error .operandShape hs ?_
      simp only [opBody, opGenVal, hpk, hw, hh, hpw, hfmt, hread, Slot.read_put, ok_bind, error_bind,
        require_pos harea, require_neg hshape]
    · refine exec_of_body_error .operandShape hs ?_
      have hnot : ¬(2 ≤ fmt.toNat → ∀ c ∈ pk, c ∈ pal') := fun hall => hnone (hpal' h2 ▸ hall h2 c hc)
      simp only [opBody, opGenVal, hpk, hw, hh, hpw, hfmt, hread, Slot.read_put, ok_bind, error_bind,
        require_pos harea, require_pos hshape, require_neg hnot]
    · have hmem' : 2 ≤ fmt.toNat → ∀ c ∈ pk, c ∈ pal' := fun h2 => hpal' h2 ▸ hmem h2
      have hexec := exec_of_body_ok (i := .genVal) hs (opGenVal_eq_ok.mpr
        ⟨pk, fmt, w, h, pw, pal', hpk, hfmt, hw, hh, hpw, Slot.readIf_eq_ok.mp hread, harea, hshape, hmem', rfl⟩)
      obtain ⟨⟨h1, -⟩, hle, hlen⟩ := hshape
      refine ⟨_, hexec, padRows_length hle hlen, fun x y hx hy => ⟨fun hwx => ?_, fun c hxw hc => ⟨?_, fun hne => ?_⟩⟩⟩
      · rw [pixelAt_padRows hle hlen hx hy, if_neg (not_lt.mpr hwx)]
      · rintro rfl
        rw [pixelAt_padRows hle hlen hx hy, if_pos hxw, hc]
        rfl
      · have hne1 : fmt.toNat ≠ 1 := fun h => hne (BitVec.eq_of_toNat_eq h)
        have h2 : 2 ≤ fmt.toNat := by omega
        refine ⟨paletteIndex pal c, getElem?_paletteIndex (hmem h2 c (List.mem_of_getElem? hc)), fun hi => ?_⟩
        rw [pixelAt_padRows hle hlen hx hy, if_pos hxw, hc, hpal' h2, Option.map_some, if_neg hne1, indexByte_of_lt hi]

/-- Settles O40: the tests of the body in its order; toggling twice gives the stream back. -/
theorem genUnscrResult : Obligations.GenUnscrResult := by
  refine ⟨fun s hs hinvalid => exec_of_operand_invalid hs (by simpa [readSet, State.place, Slot.map] using hinvalid),
    fun s str pw h hs hstr hpw hh => ⟨fun hzero => ?_, fun hpw0 hh0 hlen => ?_, fun hpw0 hh0 hlen => ?_⟩⟩
  · refine exec_of_body_error .zeroArea hs ?_
    have hnot : ¬(1 ≤ pw.toNat ∧ 1 ≤ h.toNat) := by
      rintro ⟨hpw1, hh1⟩
      exact hzero.elim (one_le_toNat_iff.mp hpw1) (one_le_toNat_iff.mp hh1)
    simp only [opBody, opGenUnscr, hstr, hpw, hh, Slot.read_put, ok_bind, error_bind, require_neg hnot]
  all_goals have harea : 1 ≤ pw.toNat ∧ 1 ≤ h.toNat := ⟨one_le_toNat_iff.mpr hpw0, one_le_toNat_iff.mpr hh0⟩
  · refine exec_of_body_error .operandShape hs ?_
    simp only [opBody, opGenUnscr, hstr, hpw, hh, Slot.read_put, ok_bind, error_bind, require_pos harea,
      require_neg hlen]
  · refine ⟨unscreen pw.toNat str,
      exec_of_body_ok hs (opGenUnscr_eq_ok.mpr ⟨str, pw, h, hstr, hpw, hh, harea, hlen, rfl⟩),
      unscreen_length pw.toNat str, fun x y hx _ => pixelAt_unscreen hx y str, exec_of_body_ok hs
        (opGenUnscr_eq_ok.mpr ⟨unscreen pw.toNat str, pw, h, rfl, hpw, hh, harea, by simpa using hlen, ?_⟩)⟩
    rw [unscreen_unscreen, State.setStr, ← hstr]

end Sys2Proof.Proofs.PixelFamily
end

section
/-! SUPPORT. The run-length coders: runs that alternate between two values, and runs with their values
(42_run_length.md R211 to R218). -/

namespace Sys2Proof.Machine

/-- Runs are all positive where no run is 0. -/
theorem forall_one_le_iff {run : List Nat} : (∀ r ∈ run, 1 ≤ r) ↔ 0 ∉ run := by
  refine ⟨fun hpos hzero => absurd (hpos 0 hzero) (by decide), fun hzero r hr => Nat.one_le_iff_ne_zero.mpr ?_⟩
  rintro rfl
  exact hzero hr

theorem one_le_toNat_two_iff {m n : Nat} {x : BitVec m} {y : BitVec n} :
    1 ≤ x.toNat ∧ 1 ≤ y.toNat ↔ ¬(x = 0 ∨ y = 0) := by
  simp only [one_le_toNat_iff, not_or, ne_eq]

section Walk

/-- The walk of R215 counts the runs as the walk of R213 does. -/
theorem map_snd_pairsFrom (cur : Byte) (cnt : Nat) (xs : List Byte) :
    (pairsFrom cur cnt xs).map Prod.snd = runsFrom cur cnt xs := by
  induction xs generalizing cur cnt with
  | nil => rfl
  | cons x xs ih => simp only [pairsFrom, runsFrom, apply_ite (List.map Prod.snd), List.map_cons, ih]

/-- The walk of R215 passes over further elements of the current run by counting them. -/
theorem pairsFrom_replicate_append (cur : Byte) (cnt k : Nat) (xs : List Byte) :
    pairsFrom cur cnt (List.replicate k cur ++ xs) = pairsFrom cur (cnt + k) xs := by
  induction k generalizing cnt with
  | zero => rfl
  | succ k ih =>
    rw [List.replicate_succ, List.cons_append, pairsFrom, if_pos rfl, ih, Nat.add_right_comm, Nat.add_assoc]

theorem runsFrom_replicate_append (cur : Byte) (cnt k : Nat) (xs : List Byte) :
    runsFrom cur cnt (List.replicate k cur ++ xs) = runsFrom cur (cnt + k) xs := by
  simp only [← map_snd_pairsFrom, pairsFrom_replicate_append]

end Walk

section Alternating

variable {a b : Byte}

@[simp] theorem alternating_nil (a b : Byte) : alternating a b [] = [] := rfl

@[simp] theorem alternating_cons (a b : Byte) (r : Nat) (rs : List Nat) :
    alternating a b (r :: rs) = List.replicate r a ++ alternating b a rs := rfl

@[simp] theorem alternating_length (a b : Byte) (run : List Nat) : (alternating a b run).length = run.sum := by
  induction run generalizing a b with
  | nil => rfl
  | cons r rs ih => simp [ih]

theorem map_alternating (f : Byte → Byte) (a b : Byte) (run : List Nat) :
    (alternating a b run).map f = alternating (f a) (f b) run := by
  induction run generalizing a b with
  | nil => rfl
  | cons r rs ih => simp [ih]

/-- The expander of R216 toggles between `c` and `1 - c`. -/
theorem expandBinary_eq_alternating (c : Byte) (run : List Nat) :
    expandBinary c run = alternating c (1 - c) run := by
  induction run generalizing c with
  | nil => rfl
  | cons r rs ih => rw [expandBinary, ih, alternating_cons, sub_sub_cancel]

theorem runsFrom_pos {cur : Byte} {cnt : Nat} (hcnt : 1 ≤ cnt) (xs : List Byte) : ∀ r ∈ runsFrom cur cnt xs, 1 ≤ r := by
  induction xs generalizing cur cnt with
  | nil => simpa [runsFrom] using hcnt
  | cons x xs ih =>
    by_cases hx : x = cur
    · rw [runsFrom, if_pos hx]
      exact ih (Nat.le_add_right_of_le hcnt)
    · rw [runsFrom, if_neg hx, List.forall_mem_cons]
      exact ⟨hcnt, ih le_rfl⟩

/-- In a stream of two values the runs alternate, so the lengths alone give the stream back. -/
theorem alternating_runsFrom {xs : List Byte} (hxs : ∀ x ∈ xs, x = a ∨ x = b) (cnt : Nat) :
    alternating a b (runsFrom a cnt xs) = List.replicate cnt a ++ xs := by
  induction xs generalizing a b cnt with
  | nil => simp [runsFrom]
  | cons x xs ih =>
    obtain ⟨hx, hxs⟩ := List.forall_mem_cons.mp hxs
    by_cases hxa : x = a
    · rw [runsFrom, if_pos hxa, ih hxs, List.replicate_succ', List.append_assoc, hxa, List.singleton_append]
    · obtain rfl : x = b := hx.resolve_left hxa
      rw [runsFrom, if_neg hxa, alternating_cons, ih fun y hy => (hxs y hy).symm]
      rfl

/-- The walk finds the alternating runs that follow the current run. -/
theorem runsFrom_alternating (hab : a ≠ b) {run : List Nat} (hrun : ∀ r ∈ run, 1 ≤ r) (cnt : Nat) :
    runsFrom a cnt (alternating b a run) = cnt :: run := by
  induction run generalizing a b cnt with
  | nil => rfl
  | cons r rs ih =>
    obtain ⟨hr, hrs⟩ := List.forall_mem_cons.mp hrun
    obtain ⟨k, rfl⟩ := Nat.exists_eq_add_of_le' hr
    rw [alternating_cons, List.replicate_succ, List.cons_append, runsFrom, if_neg hab.symm, runsFrom_replicate_append,
      ih hab.symm hrs, Nat.add_comm]

/-- The binary runs of a stream are those of the phantom 0 and the stream (R211). -/
theorem alternating_runsBinary {str : List Byte} (hstr : ∀ x ∈ str, x = 0 ∨ x = 255) :
    alternating 0 255 (runsBinary str) = 0 :: str :=
  alternating_runsFrom hstr 1

theorem runsBinary_sum {str : List Byte} (hstr : ∀ x ∈ str, x = 0 ∨ x = 255) :
    (runsBinary str).sum = str.length + 1 := by
  rw [← alternating_length 0 255, alternating_runsBinary hstr, List.length_cons]

theorem runsBinary_alternating {run : List Nat} (hne : run ≠ []) (hrun : ∀ r ∈ run, 1 ≤ r) :
    runsBinary ((alternating 0 255 run).drop 1) = run := by
  cases run with
  | nil => exact absurd rfl hne
  | cons r rs =>
    obtain ⟨hr, hrs⟩ := List.forall_mem_cons.mp hrun
    obtain ⟨k, rfl⟩ := Nat.exists_eq_add_of_le' hr
    rw [alternating_cons, List.replicate_succ, List.cons_append, List.drop_one, List.tail_cons, runsBinary,
      runsFrom_replicate_append, runsFrom_alternating (by decide) hrs, Nat.add_comm]

/-- Bytes 0 and 255 come back from the expander as 0 and 1, after the phantom. -/
theorem expandBinary_runsBinary {str : List Byte} (hstr : ∀ x ∈ str, x = 0 ∨ x = 255) :
    expandBinary 0 (runsBinary str) = 0 :: str.map (fun x => if x = 255 then 1 else 0) := by
  rw [expandBinary_eq_alternating]
  calc alternating 0 (1 - 0) (runsBinary str)
      = (alternating 0 255 (runsBinary str)).map (fun x => if x = 255 then 1 else 0) :=
        (map_alternating (fun x => if x = 255 then 1 else 0) 0 255 (runsBinary str)).symm
    _ = 0 :: str.map (fun x => if x = 255 then 1 else 0) := by rw [alternating_runsBinary hstr]; rfl

end Alternating

section Pairs

@[simp] theorem runStream_cons (r : Nat) (rs : List Nat) (v : Byte) (vs : List Byte) :
    runStream (r :: rs) (v :: vs) = List.replicate r v ++ runStream rs vs := rfl

@[simp] theorem runStream_nil (run : List Nat) : runStream run [] = [] := by
  simp [runStream]

theorem runStream_length {run : List Nat} {vals : List Byte} (hlen : vals.length = run.length) :
    (runStream run vals).length = run.sum := by
  induction run generalizing vals with
  | nil => rfl
  | cons r rs ih =>
    obtain ⟨v, vs, rfl⟩ := List.exists_cons_of_length_eq_add_one hlen
    simp [ih (Nat.succ_injective hlen)]

theorem expandMulti_eq_runStream (vals : List Byte) (run : List Nat) : expandMulti vals run = runStream run vals := by
  induction vals generalizing run with
  | nil => rw [runStream_nil]; rfl
  | cons v vs ih =>
    cases run with
    | nil => rfl
    | cons r rs => rw [expandMulti, ih, runStream_cons]

/-- The values of the walk of R215: the current one, and from there on each differs from the one before. -/
theorem map_fst_pairsFrom (cur : Byte) (cnt : Nat) (xs : List Byte) :
    ∃ vs, (pairsFrom cur cnt xs).map Prod.fst = cur :: vs ∧ (cur :: vs).IsChain (· ≠ ·) := by
  induction xs generalizing cur cnt with
  | nil => exact ⟨[], rfl, .singleton cur⟩
  | cons x xs ih =>
    by_cases hx : x = cur
    · rw [pairsFrom, if_pos hx]
      exact ih cur (cnt + 1)
    · obtain ⟨vs, hvals, hchain⟩ := ih x 1
      refine ⟨x :: vs, ?_, .cons_cons (Ne.symm hx) hchain⟩
      rw [pairsFrom, if_neg hx, List.map_cons, hvals]

theorem runStream_pairsFrom (cur : Byte) (cnt : Nat) (xs : List Byte) :
    runStream ((pairsFrom cur cnt xs).map Prod.snd) ((pairsFrom cur cnt xs).map Prod.fst) =
      List.replicate cnt cur ++ xs := by
  induction xs generalizing cur cnt with
  | nil => simp [pairsFrom]
  | cons x xs ih =>
    by_cases hx : x = cur
    · rw [pairsFrom, if_pos hx, ih, List.replicate_succ', List.append_assoc, hx, List.singleton_append]
    · rw [pairsFrom, if_neg hx, List.map_cons, List.map_cons, runStream_cons, ih]
      rfl

/-- The walk finds the runs that follow the current run, where each value differs from the one before. -/
theorem pairsFrom_runStream {cur : Byte} {run : List Nat} {vals : List Byte} (hlen : vals.length = run.length)
    (hrun : ∀ r ∈ run, 1 ≤ r) (hchain : (cur :: vals).IsChain (· ≠ ·)) (cnt : Nat) :
    pairsFrom cur cnt (runStream run vals) = (cur, cnt) :: vals.zip run := by
  induction run generalizing cur vals cnt with
  | nil =>
    obtain rfl := List.eq_nil_of_length_eq_zero hlen
    rfl
  | cons r rs ih =>
    obtain ⟨v, vs, rfl⟩ := List.exists_cons_of_length_eq_add_one hlen
    obtain ⟨hr, hrs⟩ := List.forall_mem_cons.mp hrun
    obtain ⟨k, rfl⟩ := Nat.exists_eq_add_of_le' hr
    obtain ⟨hne, hchain⟩ := List.isChain_cons_cons.mp hchain
    rw [runStream_cons, List.replicate_succ, List.cons_append, pairsFrom, if_neg hne.symm, pairsFrom_replicate_append,
      ih (Nat.succ_injective hlen) hrs hchain, Nat.add_comm, List.zip_cons_cons]

/-- Consecutive elements differ, said by places and by a chain. -/
theorem isChain_ne_iff_getElem? {vals : List Byte} :
    vals.IsChain (· ≠ ·) ↔ ∀ i, i + 1 < vals.length → vals[i]? ≠ vals[i + 1]? := by
  rw [List.isChain_iff_getElem]
  refine forall₂_congr fun i hi => ?_
  rw [List.getElem?_eq_getElem hi, List.getElem?_eq_getElem (Nat.lt_of_succ_lt hi), ne_eq, ne_eq, Option.some_inj]

theorem runsMulti_cons (x : Byte) (xs : List Byte) :
    runsMulti (x :: xs) = ((pairsFrom x 1 xs).map Prod.fst, (pairsFrom x 1 xs).map Prod.snd) := rfl

theorem runsMulti_length (str : List Byte) : (runsMulti str).2.length = (runsMulti str).1.length := by
  simp [runsMulti]

theorem runsMulti_pos (str : List Byte) : ∀ r ∈ (runsMulti str).2, 1 ≤ r := by
  cases str with
  | nil => exact List.forall_mem_nil _
  | cons x xs =>
    rw [runsMulti_cons, map_snd_pairsFrom]
    exact runsFrom_pos le_rfl xs

theorem runsMulti_isChain (str : List Byte) : (runsMulti str).1.IsChain (· ≠ ·) := by
  cases str with
  | nil => exact .nil
  | cons x xs =>
    obtain ⟨vs, hvals, hchain⟩ := map_fst_pairsFrom x 1 xs
    rwa [runsMulti_cons, hvals]

theorem runStream_runsMulti (str : List Byte) : runStream (runsMulti str).2 (runsMulti str).1 = str := by
  cases str with
  | nil => rfl
  | cons x xs => exact runStream_pairsFrom x 1 xs

theorem runsMulti_runStream {run : List Nat} {vals : List Byte} (hlen : vals.length = run.length)
    (hrun : ∀ r ∈ run, 1 ≤ r) (hchain : vals.IsChain (· ≠ ·)) : runsMulti (runStream run vals) = (vals, run) := by
  have hpairs : runPairs (runStream run vals) = vals.zip run := by
    cases run with
    | nil =>
      obtain rfl := List.eq_nil_of_length_eq_zero hlen
      rfl
    | cons r rs =>
      obtain ⟨v, vs, rfl⟩ := List.exists_cons_of_length_eq_add_one hlen
      obtain ⟨hr, hrs⟩ := List.forall_mem_cons.mp hrun
      obtain ⟨k, rfl⟩ := Nat.exists_eq_add_of_le' hr
      rw [runStream_cons, List.replicate_succ, List.cons_append, runPairs, pairsFrom_replicate_append,
        pairsFrom_runStream (Nat.succ_injective hlen) hrs hchain, Nat.add_comm, List.zip_cons_cons]
  rw [runsMulti, hpairs, List.map_fst_zip hlen.le, List.map_snd_zip hlen.ge]

end Pairs

end Sys2Proof.Machine
end

section
/-! PROOFS. The statements about the run-length encoders and expanders (42_run_length.md). -/

namespace Sys2Proof.Proofs.RunLengthFamily

open Sys2Proof Sys2Proof.Machine

/-- Settles O45: each walk finds the runs of an expanded sequence, and the expansion of the runs it finds is the
stream. -/
theorem runLengthCodingInverts : Obligations.RunLengthCodingInverts := by
  refine ⟨fun str hstr => ?_, fun str => ?_, fun run hne hrun => runsBinary_alternating hne hrun,
    fun run vals hlen hrun hne => runsMulti_runStream hlen.symm hrun (isChain_ne_iff_getElem?.mpr hne)⟩
  · rw [expandBinary_runsBinary hstr, List.drop_one, List.tail_cons]
  · rw [expandMulti_eq_runStream, runStream_runsMulti]

/-- Settles O41: the test of the body; the runs of a stream of two values alternate. -/
theorem rleBinResult : Obligations.RleBinResult := by
  refine ⟨fun s hs hinvalid => exec_of_operand_invalid hs (by simpa [readSet, State.place, Slot.map] using hinvalid),
    fun s str hs hstr => ⟨fun ⟨x, hx, hx0, hx255⟩ => ?_, fun hbytes => ?_⟩⟩
  · refine exec_of_body_error .operandShape hs ?_
    have hnot : ¬∀ x ∈ str, x = 0 ∨ x = 255 := fun hbytes => (hbytes x hx).elim hx0 hx255
    simp only [opBody, opRleBin, hstr, Slot.read_put, ok_bind, error_bind, require_neg hnot]
  · exact ⟨runsBinary str, exec_of_body_ok hs (opRleBin_eq_ok.mpr ⟨str, hstr, hbytes, rfl⟩),
      runsFrom_pos le_rfl str, runsBinary_sum hbytes, alternating_runsBinary hbytes⟩

/-- Settles O42: the body reads `STR` and writes its maximal runs and their values. -/
theorem rleMvResult : Obligations.RleMvResult :=
  ⟨fun s hs hinvalid => exec_of_operand_invalid hs (by simpa [readSet, State.place, Slot.map] using hinvalid),
    fun _ str hs hstr => ⟨(runsMulti str).2, (runsMulti str).1,
      exec_of_body_ok hs (opRleMv_eq_ok.mpr ⟨str, hstr, rfl⟩), runsMulti_length str, runsMulti_pos str,
      isChain_ne_iff_getElem?.mp (runsMulti_isChain str), runStream_runsMulti str⟩⟩

/-- Settles O43: the tests of the body in its order; the expander's runs alternate between 0 and 1. -/
theorem rlxBinResult : Obligations.RlxBinResult := by
  refine ⟨fun s hs hinvalid => exec_of_operand_invalid hs (by simpa [readSet, State.place, Slot.map] using hinvalid),
    fun s run pw h hs hrun hpw hh => ⟨fun hzero => ?_, fun hpw0 hh0 hzero => ?_, fun hpw0 hh0 hpos hsum => ?_,
      fun hpw0 hh0 hpos hsum => ⟨?_, ?_⟩⟩⟩
  · refine exec_of_body_error .zeroArea hs ?_
    have hnot : ¬(1 ≤ pw.toNat ∧ 1 ≤ h.toNat) := fun harea => one_le_toNat_two_iff.mp harea hzero
    simp only [opBody, opRlxBin, hrun, hpw, hh, Slot.read_put, ok_bind, error_bind, require_neg hnot]
  all_goals have harea : 1 ≤ pw.toNat ∧ 1 ≤ h.toNat := one_le_toNat_two_iff.mpr (not_or.mpr ⟨hpw0, hh0⟩)
  · refine exec_of_body_error .zeroValue hs ?_
    have hnot : ¬∀ r ∈ run, 1 ≤ r := fun hpos => forall_one_le_iff.mp hpos hzero
    simp only [opBody, opRlxBin, hrun, hpw, hh, Slot.read_put, ok_bind, error_bind, require_pos harea,
      require_neg hnot]
  · refine exec_of_body_error .malformedContainer hs ?_
    simp only [opBody, opRlxBin, hrun, hpw, hh, Slot.read_put, ok_bind, error_bind, require_pos harea,
      require_pos (forall_one_le_iff.mpr hpos), require_neg hsum]
  · refine exec_of_body_ok hs
      (opRlxBin_eq_ok.mpr ⟨run, pw, h, hrun, hpw, hh, harea, forall_one_le_iff.mpr hpos, hsum, ?_⟩)
    rw [expandBinary_eq_alternating]
    rfl
  · rw [List.length_drop, alternating_length, hsum, Nat.add_sub_cancel]

/-- Settles O44: the tests of the body in its order; the two about the container share one fault. -/
theorem rlxMvResult : Obligations.RlxMvResult := by
  refine ⟨fun s hs hinvalid => exec_of_operand_invalid hs (by simpa [readSet, State.place, Slot.map] using hinvalid),
    fun s run vals pw h hs hrun hvals hpw hh => ⟨fun hzero => ?_, fun hpw0 hh0 hzero => ?_,
      fun hpw0 hh0 hpos hbad => ?_, fun hpw0 hh0 hpos hlen hsum => ⟨?_, ?_⟩⟩⟩
  · refine exec_of_body_error .zeroArea hs ?_
    have hnot : ¬(1 ≤ pw.toNat ∧ 1 ≤ h.toNat) := fun harea => one_le_toNat_two_iff.mp harea hzero
    simp only [opBody, opRlxMv, hrun, hvals, hpw, hh, Slot.read_put, ok_bind, error_bind, require_neg hnot]
  all_goals have harea : 1 ≤ pw.toNat ∧ 1 ≤ h.toNat := one_le_toNat_two_iff.mpr (not_or.mpr ⟨hpw0, hh0⟩)
  · refine exec_of_body_error .zeroValue hs ?_
    have hnot : ¬∀ r ∈ run, 1 ≤ r := fun hpos => forall_one_le_iff.mp hpos hzero
    simp only [opBody, opRlxMv, hrun, hvals, hpw, hh, Slot.read_put, ok_bind, error_bind, require_pos harea,
      require_neg hnot]
  · refine exec_of_body_error .malformedContainer hs ?_
    have hnot : ¬(vals.length = run.length ∧ run.sum = pw.toNat * h.toNat) := not_and_or.mpr hbad
    simp only [opBody, opRlxMv, hrun, hvals, hpw, hh, Slot.read_put, ok_bind, error_bind, require_pos harea,
      require_pos (forall_one_le_iff.mpr hpos), require_bind_require, require_neg hnot]
  · refine exec_of_body_ok hs (opRlxMv_eq_ok.mpr
      ⟨run, vals, pw, h, hrun, hvals, hpw, hh, harea, forall_one_le_iff.mpr hpos, hlen, hsum, ?_⟩)
    rw [expandMulti_eq_runStream]
    rfl
  · rw [runStream_length hlen, hsum]

end Sys2Proof.Proofs.RunLengthFamily
end

section
/-! SUPPORT. The bodies of a list of operations one after the other, against the commands run one after the other: the
composites are such lists (43_container_encoder.md R240). -/

namespace Sys2Proof.Machine

/-- The bodies of operations one after the other, up to the first fault. -/
def runBodies : List Instr → State → Except FaultCode State
  | [], s => .ok s
  | i :: is, s => opBody i s >>= runBodies is

variable {i : Instr} {is js : List Instr} {s t : State}

@[simp] theorem runBodies_nil (s : State) : runBodies [] s = .ok s := rfl

theorem runBodies_cons (i : Instr) (is : List Instr) :
    runBodies (i :: is) = fun s => opBody i s >>= runBodies is := rfl

/-- Nothing comes after the last body. -/
@[simp] theorem bind_runBodies_nil (x : Except FaultCode State) : (x >>= runBodies []) = x := by
  cases x <;> rfl

theorem runBodies_append (is js : List Instr) (s : State) :
    runBodies (is ++ js) s = runBodies is s >>= runBodies js := by
  induction is generalizing s with
  | nil => rfl
  | cons i is ih =>
    simp only [List.cons_append, runBodies_cons]
    cases opBody i s with
    | error x => rfl
    | ok t => exact ih t

theorem opBody_fault (hi : i ≠ .sysReset) (h : opBody i s = .ok t) : t.fault = s.fault := by
  obtain ⟨ws, -, rfl⟩ := opBody_eq_ok hi h
  exact applyWrites_fault ws s

/-- Where the bodies answer, so do the commands, and no fault is recorded. -/
theorem runCommands_of_bodies_ok (his : Instr.sysReset ∉ is) (hs : s.fault = 0) (h : runBodies is s = .ok t) :
    runCommands is s = .next t ∧ t.fault = 0 := by
  induction is generalizing s with
  | nil =>
    cases h
    exact ⟨rfl, hs⟩
  | cons i is ih =>
    obtain ⟨hi, his⟩ := not_or.mp (List.mem_cons.not.mp his)
    obtain ⟨u, hu, hrest⟩ := bind_eq_ok.mp h
    rw [runCommands_cons_of_next (exec_of_body_ok hs hu (Ne.symm hi))]
    exact ih his ((opBody_fault (Ne.symm hi) hu).trans hs) hrest

/-- Where a body faults, the commands end with its fault: those after it are ignored (60_exceptions.md R305). -/
theorem runCommands_of_bodies_error {x : FaultCode} (his : Instr.sysReset ∉ is) (hs : s.fault = 0)
    (h : runBodies is s = .error x) (hrun : runCommands is s = .next t) : t.fault = x.code := by
  induction is generalizing s with
  | nil => cases h
  | cons i is ih =>
    obtain ⟨hi, his⟩ := not_or.mp (List.mem_cons.not.mp his)
    rcases bind_eq_error.mp h with hx | ⟨u, hu, hrest⟩
    · rw [runCommands_cons_of_next (exec_of_body_error x hs hx (Ne.symm hi)),
        runCommands_of_faulted his x.code_ne_zero] at hrun
      cases hrun
      rfl
    · rw [runCommands_cons_of_next (exec_of_body_ok hs hu (Ne.symm hi))] at hrun
      exact ih his ((opBody_fault (Ne.symm hi) hu).trans hs) hrest hrun

/-- Commands that leave no fault recorded are those whose bodies all answer. -/
theorem runCommands_eq_next_iff_bodies_ok (his : Instr.sysReset ∉ is) (hs : s.fault = 0) :
    (runCommands is s = .next t ∧ t.fault = 0) ↔ runBodies is s = .ok t := by
  refine ⟨fun ⟨hrun, ht⟩ => ?_, runCommands_of_bodies_ok his hs⟩
  cases hb : runBodies is s with
  | ok u =>
    obtain ⟨hu, -⟩ := runCommands_of_bodies_ok his hs hb
    rw [hu] at hrun
    cases hrun
    rfl
  | error x => exact absurd (ht ▸ runCommands_of_bodies_error his hs hb hrun).symm x.code_ne_zero

/-- The steps of `ENCODE` from the choice of the format on, `CNT.ASM` the last of them (R240). -/
def encodeBackSteps (fmt : BitVec 8) : List Instr := encodeMiddleSteps fmt ++ [.cntAsm]

theorem encodeBackSteps_eq (fmt : BitVec 8) : encodeBackSteps fmt =
    if fmt = 0 then [.genMono, .rleBin, .cntSearch, .cntAsm] else [.genVal, .rleMv, .cntSearch, .fixPack, .cntAsm] := by
  unfold encodeBackSteps encodeMiddleSteps
  split <;> rfl

theorem sysReset_notMem_encodeMiddleSteps (fmt : BitVec 8) : Instr.sysReset ∉ encodeMiddleSteps fmt := by
  unfold encodeMiddleSteps
  split <;> decide

theorem sysReset_notMem_encodeBackSteps (fmt : BitVec 8) : Instr.sysReset ∉ encodeBackSteps fmt := by
  rw [encodeBackSteps_eq]
  split <;> decide

theorem encodeFront_eq_runBodies (s : State) : encodeFront s = runBodies encodeFrontSteps s := by
  simp only [encodeFront, encodeFrontSteps, runBodies_cons, bind_runBodies_nil, opBody]

theorem encodeBack_eq_runBodies (fmt : BitVec 8) (s : State) :
    encodeBack fmt s = runBodies (encodeBackSteps fmt) s := by
  rw [encodeBackSteps_eq, encodeBack]
  split <;> simp only [encodeMono, encodeValues, runBodies_cons, bind_runBodies_nil, opBody]

/-- The last step of `ENCODE` assembles what the steps before it leave. -/
theorem encodeBack_eq_bind (fmt : BitVec 8) (s : State) :
    encodeBack fmt s = runBodies (encodeMiddleSteps fmt) s >>= opCntAsm := by
  simp only [encodeBack_eq_runBodies, encodeBackSteps, runBodies_append, runBodies_cons, bind_runBodies_nil, opBody]

end Sys2Proof.Machine
end

section
/-! SUPPORT. The search (43_container_encoder.md R232 to R234): every candidate of positive integers packs and verifies,
and the loop keeps the first of the shortest. -/

namespace Sys2Proof.Machine

/-- A candidate of positive integers passes the verification (R233): unpacking gives back what was packed (R144). -/
theorem packCandidate_of_pos {n : Nat} {seq : List Nat} (hn : isChunkWidth n) (hseq : ∀ r ∈ seq, 1 ≤ r)
    (us : BitVec 1) : packCandidate ⟨n, us, seq⟩ = .ok ⟨n, us, packSeq seq n⟩ :=
  packCandidate_eq_ok.mpr ⟨Proofs.CodecFamily.unpackingAPackedSequenceGivesItBack n seq hn hseq, rfl⟩

/-- One turn of the loop of R232. -/
theorem searchFrom_cons {best : Packed} {n : Nat} {us : BitVec 1} {seq : List Nat} (cs : List Candidate)
    (hn : isChunkWidth n) (hseq : ∀ r ∈ seq, 1 ≤ r) :
    searchFrom best (⟨n, us, seq⟩ :: cs) =
      searchFrom (if (packSeq seq n).length < best.bytes.length then ⟨n, us, packSeq seq n⟩ else best) cs := by
  rw [searchFrom, packCandidate_of_pos hn hseq, ok_bind]

theorem runsBinary_pos (xs : List Byte) : ∀ r ∈ runsBinary xs, 1 ≤ r := runsFrom_pos le_rfl xs

/-- Among the widths `ms`, `n` packs `run` in the fewest bytes, and in fewer than the widths below it. -/
structure Shortest (run : List Nat) (ms : List Nat) (n : Nat) : Prop where
  mem : n ∈ ms
  le : ∀ m ∈ ms, (packSeq run n).length ≤ (packSeq run m).length
  lt : ∀ m ∈ ms, m < n → (packSeq run n).length < (packSeq run m).length

/-- The loop over the plain candidates of rising widths keeps the shortest, and goes on with the candidates after
them. -/
theorem exists_searchFrom_plain {run : List Nat} (hrun : ∀ r ∈ run, 1 ≤ r) (cs : List Candidate) {n : Nat}
    {ms : List Nat} (hms : ∀ m ∈ ms, isChunkWidth m) (hsorted : (n :: ms).Pairwise (· < ·)) :
    ∃ k, Shortest run (n :: ms) k ∧ searchFrom ⟨n, 0, packSeq run n⟩ (ms.map (fun m => ⟨m, 0, run⟩) ++ cs) =
      searchFrom ⟨k, 0, packSeq run k⟩ cs := by
  induction ms generalizing n with
  | nil => exact ⟨n, ⟨by simp, by simp, by simp⟩, rfl⟩
  | cons m ms ih =>
    obtain ⟨hm, hms⟩ := List.forall_mem_cons.mp hms
    obtain ⟨hn, hsorted'⟩ := List.pairwise_cons.mp hsorted
    obtain ⟨hnm, hn⟩ := List.forall_mem_cons.mp hn
    rw [List.map_cons, List.cons_append, searchFrom_cons _ hm hrun]
    by_cases hlt : (packSeq run m).length < (packSeq run n).length
    · rw [if_pos hlt]
      obtain ⟨k, hk, heq⟩ := ih hms hsorted'
      have hkn : (packSeq run k).length < (packSeq run n).length := (hk.le m List.mem_cons_self).trans_lt hlt
      exact ⟨k, ⟨List.mem_cons_of_mem n hk.mem, List.forall_mem_cons.mpr ⟨hkn.le, hk.le⟩,
        List.forall_mem_cons.mpr ⟨fun _ => hkn, hk.lt⟩⟩, heq⟩
    · rw [if_neg hlt]
      obtain ⟨-, hms'⟩ := List.pairwise_cons.mp hsorted'
      obtain ⟨k, hk, heq⟩ := ih hms (List.pairwise_cons.mpr ⟨hn, hms'⟩)
      obtain ⟨hle, hle'⟩ := List.forall_mem_cons.mp hk.le
      obtain ⟨hkn, hkn'⟩ := List.forall_mem_cons.mp hk.lt
      have hnm_le : (packSeq run n).length ≤ (packSeq run m).length := not_lt.mp hlt
      refine ⟨k, ⟨?_, List.forall_mem_cons.mpr ⟨hle, List.forall_mem_cons.mpr ⟨hle.trans hnm_le, hle'⟩⟩,
        List.forall_mem_cons.mpr ⟨hkn, List.forall_mem_cons.mpr ⟨fun hmk => ?_, hkn'⟩⟩⟩, heq⟩
      · exact List.mem_cons.mpr ((List.mem_cons.mp hk.mem).imp_right (List.mem_cons_of_mem m))
      · exact (hkn (hnm.trans hmk)).trans_le hnm_le

/-- The bytes of the fifth candidate, the runs of the toggled stream at width 1 (R231). -/
def fifthBytes (pw : Nat) (str : List Byte) : List Byte := packSeq (runsBinary (unscreen pw str)) 1

/-- The answer of the search, `n` being the plain width it finds: the fifth candidate where there is one and it is
strictly shorter (R234). -/
def winner (cfg : Config) (fmt pw : Nat) (str : List Byte) (run : List Nat) (n : Nat) : Packed :=
  if screened cfg fmt ∧ (fifthBytes pw str).length < (packSeq run n).length then ⟨1, 1, fifthBytes pw str⟩
  else ⟨n, 0, packSeq run n⟩

section

variable {cfg : Config} {fmt pw : Nat} {str : List Byte} {run : List Nat} {n : Nat}

theorem winner_of_fifth (h : screened cfg fmt ∧ (fifthBytes pw str).length < (packSeq run n).length) :
    winner cfg fmt pw str run n = ⟨1, 1, fifthBytes pw str⟩ := if_pos h

theorem winner_of_plain (h : ¬(screened cfg fmt ∧ (fifthBytes pw str).length < (packSeq run n).length)) :
    winner cfg fmt pw str run n = ⟨n, 0, packSeq run n⟩ := if_neg h

end

/-- The search finds the shortest plain candidate and sets it against the fifth, where there is one (R232, R234). -/
theorem exists_search_eq (cfg : Config) (fmt pw : Nat) (str : List Byte) {run : List Nat} (hrun : ∀ r ∈ run, 1 ≤ r) :
    ∃ n, Shortest run [1, 2, 4, 8] n ∧
      search run (if screened cfg fmt then [⟨1, 1, runsBinary (unscreen pw str)⟩] else []) =
        .ok (winner cfg fmt pw str run n) := by
  obtain ⟨n, hn, heq⟩ := exists_searchFrom_plain hrun
    (if screened cfg fmt then [⟨1, 1, runsBinary (unscreen pw str)⟩] else []) (n := 1) (ms := [2, 4, 8]) (by decide)
    (by decide)
  refine ⟨n, hn, ?_⟩
  rw [search, packCandidate_of_pos (.inl rfl) hrun, ok_bind]
  refine heq.trans ?_
  unfold winner
  by_cases hsc : screened cfg fmt
  · rw [if_pos hsc, searchFrom_cons _ (.inl rfl) (runsBinary_pos _)]
    simp only [and_iff_right hsc]
    rfl
  · rw [if_neg hsc, if_neg fun hp => hsc hp.1]
    rfl

/-- What `CNT.SEARCH` needs to complete: operands that hold values, and its tests (R232). -/
structure Searchable (s : State) (fmt : BitVec 8) (run : List Nat) (str : List Byte) (pw : BitVec 9) (h : BitVec 8) :
    Prop where
  fmt_eq : s.regs.fmt = .put fmt
  run_eq : s.mem.run = .put run
  screen_eq : screened s.cfg fmt.toNat → s.mem.str = .put str ∧ s.regs.pw = .put pw ∧ s.regs.h = .put h
  fmt_le : fmt.toNat ≤ 4
  run_pos : ∀ r ∈ run, 1 ≤ r
  area : screened s.cfg fmt.toNat → 1 ≤ pw.toNat ∧ 1 ≤ h.toNat
  shape : screened s.cfg fmt.toNat → str.length = pw.toNat * h.toNat ∧ ∀ x ∈ str, x = 0 ∨ x = 255

/-- The state that `CNT.SEARCH` leaves with its answer (R232). -/
def State.setWinner (s : State) (p : Packed) : State := ((s.setN (BitVec.ofNat 7 p.n)).setUs p.us).setRleb p.bytes

theorem opCntSearch_completes {s : State} {fmt : BitVec 8} {run : List Nat} {str : List Byte} {pw : BitVec 9}
    {h : BitVec 8} (hs : Searchable s fmt run str pw h) :
    ∃ n, Shortest run [1, 2, 4, 8] n ∧
      opCntSearch s = .ok (s.setWinner (winner s.cfg fmt.toNat pw.toNat str run n)) := by
  by_cases hsc : screened s.cfg fmt.toNat
  · obtain ⟨n, hn, hsearch⟩ := exists_search_eq s.cfg fmt.toNat pw.toNat str hs.run_pos
    obtain ⟨hstr, hpw, hh⟩ := hs.screen_eq hsc
    exact ⟨n, hn, opCntSearch_eq_ok.mpr ⟨fmt, run, str, pw, h, _, hs.fmt_eq, hs.run_eq, .inl ⟨hsc, hstr⟩,
      .inl ⟨hsc, hpw⟩, .inl ⟨hsc, hh⟩, hs.fmt_le, hs.run_pos, hs.area, hs.shape, hsearch, rfl⟩⟩
  · obtain ⟨n, hn, hsearch⟩ := exists_search_eq s.cfg fmt.toNat (0 : BitVec 9).toNat [] hs.run_pos
    refine ⟨n, hn, opCntSearch_eq_ok.mpr ⟨fmt, run, [], 0, 0, _, hs.fmt_eq, hs.run_eq, .inr ⟨hsc, rfl⟩,
      .inr ⟨hsc, rfl⟩, .inr ⟨hsc, rfl⟩, hs.fmt_le, hs.run_pos, fun hp => absurd hp hsc, fun hp => absurd hp hsc,
      hsearch, ?_⟩⟩
    rw [winner_of_plain fun hp => hsc hp.1, winner_of_plain fun hp => hsc hp.1]
    rfl

end Sys2Proof.Machine
end

section
/-! SUPPORT. The container (43_container_encoder.md R237, 30_encoding.md R93): the bytes of the header, and what
`CNT.ASM` leaves of them. -/

namespace Sys2Proof.Machine

@[simp] theorem headerBytes_length (w h n us fmt f4 f6 : Nat) : (headerBytes w h n us fmt f4 f6).length = 8 := rfl

/-- A 16 bit number is read as its two bytes were written (20_memory.md R62). -/
theorem toNat_u16 {v : Nat} (h : v ≤ 65535) : (toByte (v % 256)).toNat + 256 * (toByte (v / 256)).toNat = v := by
  simp only [BitVec.toNat_ofNat]
  omega

/-- The offset at byte 4 of a container (R238). -/
theorem memRead2_four (w h n us fmt f6 : Nat) (rest : List Byte) {f4 : Nat} (h4 : f4 ≤ 65535) :
    memRead2 (headerBytes w h n us fmt f4 f6 ++ rest) 4 = f4 :=
  toNat_u16 h4

/-- The offset at byte 6 of a container (R238). -/
theorem memRead2_six (w h n us fmt f4 : Nat) (rest : List Byte) {f6 : Nat} (h6 : f6 ≤ 65535) :
    memRead2 (headerBytes w h n us fmt f4 f6 ++ rest) 6 = f6 :=
  toNat_u16 h6

/-- A register of 16 bits holds an offset (R239). -/
theorem toNat_offset {v : Nat} (h : v ≤ 65535) : (BitVec.ofNat 16 v).toNat = v :=
  Nat.mod_eq_of_lt (Nat.lt_succ_of_le h)

/-- The palette lengths of the table (30_encoding.md R96), as a list. -/
theorem paletteFits_iff {f : Nat} (hf : f ≤ 4) (len : Nat) :
    paletteFits f len ↔ (2 ≤ f → 1 ≤ len ∧ len ≤ [0, 0, 2, 4, 16].getD f 0) := by
  refine imp_congr_right fun h2 => ?_
  interval_cases f <;> rfl

/-- A conditional read of a place that holds `a` where it is read, the stand-in being `a` elsewhere. -/
theorem Slot.readIf_of_ite {α : Type} {x : Slot α} {p : Prop} [Decidable p] {a d : α}
    (h : if p then x = .put a else a = d) : x.readIf p d = .ok a := by
  refine readIf_eq_ok.mpr ?_
  split at h
  case isTrue hp => exact .inl ⟨hp, h⟩
  case isFalse hp => exact .inr ⟨hp, h⟩

/-- What `CNT.ASM` leaves in `F4`, `F6` and the header (R238). -/
theorem opCntAsm_offsets {s t : State} (h : opCntAsm s = .ok t) :
    8 ≤ t.regs.f4.val.toNat ∧ t.regs.f4.val.toNat ≤ t.regs.f6.val.toNat ∧
    t.regs.f6.val.toNat ≤ t.mem.buf.val.length ∧ (t.regs.fmt.val = 0 → t.regs.f4.val = t.regs.f6.val) ∧
    memRead2 t.mem.buf.val 4 = t.regs.f4.val.toNat ∧ memRead2 t.mem.buf.val 6 = t.regs.f6.val.toNat := by
  obtain ⟨w, h, n, us, fmt, rleb, vb, pb, -, -, -, -, hfmt, -, hvb, -, -, -, -, -, -, ⟨-, h6⟩, rfl⟩ :=
    opCntAsm_eq_ok.mp h
  have h4 : 8 + rleb.length ≤ 65535 := (Nat.le_add_right _ _).trans h6
  simp only [State.setF6_regs, State.setF4_regs, State.setBuf_regs, State.setF6_mem, State.setF4_mem, State.setBuf_mem,
    toNat_offset h4, toNat_offset h6, List.append_assoc, memRead2_four _ _ _ _ _ _ _ h4, memRead2_six _ _ _ _ _ _ _ h6,
    List.length_append, headerBytes_length]
  refine ⟨by omega, by omega, by omega, fun h0 => ?_, trivial, trivial⟩
  rw [hfmt] at h0
  have hnone : vb = [] := by
    rcases hvb with ⟨h1, -⟩ | ⟨-, hnone⟩
    · exact absurd h0 (one_le_toNat_iff.mp h1)
    · exact hnone
  rw [hnone, List.length_nil, Nat.add_zero]

/-- `ENCODE` ends with `CNT.ASM`. -/
theorem opEncodeImage_ends_with_cntAsm {s t : State} (h : opEncodeImage s = .ok t) : ∃ v, opCntAsm v = .ok t := by
  obtain ⟨-, -, -, -, u, fmt, -, -, -, -, -, -, -, -, hback⟩ := opEncodeImage_eq_ok.mp h
  rw [encodeBack_eq_bind] at hback
  obtain ⟨v, -, hasm⟩ := bind_eq_ok.mp hback
  exact ⟨v, hasm⟩

end Sys2Proof.Machine
end

section
/-! SUPPORT. The steps of `ENCODE` up to the choice of the format (43_container_encoder.md R240): the cleaned, quantized
and packed image, its colours, and what the format chosen for them is good for. -/

namespace Sys2Proof.Machine

/-- The palette that `CLS.COUNT` makes of packed pixels (41_pixel_classifier_quantizer.md R175). -/
def palette (cfg : Config) (pk : List Byte) : List Byte := orderPalette cfg pk (pk.eraseDups.take 16)

/-- The flag that `CLS.COUNT` makes of packed pixels (R175). -/
def tooManyColors (pk : List Byte) : Bool := decide (16 < pk.eraseDups.length)

/-- The state after `CLS.COUNT`, the fourth step. -/
def counted (s : State) (img : List Pixel) : State :=
  (((s.setWimg (normImage s.cfg img)).setPk (packedImage s.cfg img)).setPal
    (palette s.cfg (packedImage s.cfg img))).setTooMany (tooManyColors (packedImage s.cfg img))

/-- The state after `CLS.FMT` has chosen the format `f` for an image of width `w` (R177). -/
def State.setFormat (s : State) (f w : Nat) : State :=
  let t := (s.setFmt (BitVec.ofNat 8 f)).setPw (BitVec.ofNat 9 (paddedWidth f w))
  if 1 ≤ f then t.setVn (BitVec.ofNat 4 (valueWidth f)) else t

/-- Choosing a format writes registers only. -/
theorem State.setFormat_frame (s : State) (f w : Nat) :
    (s.setFormat f w).cfg = s.cfg ∧ (s.setFormat f w).mem = s.mem ∧ (s.setFormat f w).fault = s.fault ∧
      (s.setFormat f w).regs.w = s.regs.w ∧ (s.setFormat f w).regs.h = s.regs.h := by
  unfold State.setFormat
  by_cases hf : 1 ≤ f
  · simp only [if_pos hf]
    exact ⟨rfl, rfl, rfl, rfl, rfl⟩
  · simp only [if_neg hf]
    exact ⟨rfl, rfl, rfl, rfl, rfl⟩

/-- What choosing a format writes (R177). -/
theorem State.setFormat_regs (s : State) (f w : Nat) :
    (s.setFormat f w).regs.fmt = .put (BitVec.ofNat 8 f) ∧
      (s.setFormat f w).regs.pw = .put (BitVec.ofNat 9 (paddedWidth f w)) ∧
      (1 ≤ f → (s.setFormat f w).regs.vn = .put (BitVec.ofNat 4 (valueWidth f))) := by
  unfold State.setFormat
  by_cases hf : 1 ≤ f
  · simp only [if_pos hf]
    exact ⟨rfl, rfl, fun _ => rfl⟩
  · simp only [if_neg hf]
    exact ⟨rfl, rfl, fun h => absurd h hf⟩

variable {cfg : Config} {pk : List Byte} {var : BitVec 1} {w : BitVec 8} {f : Nat} {img : List Pixel} {s u : State}

theorem normImage_eq_map (cfg : Config) (img : List Pixel) :
    normImage cfg img = (img.map cleanPixel).map (quantPixel cfg) := by
  rw [List.map_map]
  rfl

theorem encodeFront_of_img (himg : s.mem.img = .put img) : encodeFront s = opClsFmt (counted s img) := by
  simp only [encodeFront, opPixClean, opPixQuant, opPixPack8, opClsCount, himg, countColors_nil, Slot.read_put, ok_bind,
    pure_eq_ok, State.setWimg_mem, State.setWimg_cfg, State.setPk_mem, State.setPk_cfg, ← normImage_eq_map]
  rfl

/-- Everything the steps up to the choice of the format can do when they answer. -/
theorem encodeFront_eq_ok_iff : encodeFront s = .ok u ↔ ∃ img var w f,
    s.mem.img = .put img ∧ s.regs.var = .put var ∧ s.regs.w = .put w ∧ 1 ≤ w.toNat ∧
    (tooManyColors (packedImage s.cfg img) = true ∨ 1 ≤ (palette s.cfg (packedImage s.cfg img)).length) ∧
    classify s.cfg var (tooManyColors (packedImage s.cfg img)) (palette s.cfg (packedImage s.cfg img)) = .ok f ∧
    u = (counted s img).setFormat f w.toNat := by
  constructor
  · intro h
    obtain ⟨s1, -, -, -, hclean, -⟩ := encodeFront_eq_ok.mp h
    obtain ⟨img, himg, -⟩ := opPixClean_eq_ok.mp hclean
    rw [encodeFront_of_img himg] at h
    obtain ⟨var, pal, w, f, hvar, hpal, hw, hw1, hne, hf, hu⟩ := opClsFmt_eq_ok.mp h
    obtain rfl : palette s.cfg (packedImage s.cfg img) = pal := congrArg Slot.val hpal
    exact ⟨img, var, w, f, himg, hvar, hw, hw1, hne, hf, hu⟩
  · rintro ⟨img, var, w, f, himg, hvar, hw, hw1, hne, hf, hu⟩
    rw [encodeFront_of_img himg]
    exact opClsFmt_eq_ok.mpr ⟨var, _, w, f, hvar, rfl, hw, hw1, hne, hf, hu⟩

theorem palette_perm (cfg : Config) (pk : List Byte) : (palette cfg pk).Perm (pk.eraseDups.take 16) :=
  orderPalette_perm cfg pk _

theorem palette_length_le (cfg : Config) (pk : List Byte) : (palette cfg pk).length ≤ 16 := by
  rw [(palette_perm cfg pk).length_eq]
  exact List.length_take_le 16 _

/-- The palette of pixels that are there is not empty. -/
theorem palette_length_pos (cfg : Config) (hpk : pk ≠ []) : 1 ≤ (palette cfg pk).length := by
  obtain ⟨c, cs, rfl⟩ := List.exists_cons_of_ne_nil hpk
  rw [(palette_perm cfg _).length_eq, List.eraseDups_cons, List.length_take, List.length_cons]
  omega

/-- Of at most 16 colours none is left out of the palette. -/
theorem mem_palette_iff (cfg : Config) (h : tooManyColors pk = false) {c : Byte} : c ∈ palette cfg pk ↔ c ∈ pk := by
  have hle : pk.eraseDups.length ≤ 16 := not_lt.mp (of_decide_eq_false h)
  rw [(palette_perm cfg pk).mem_iff, List.take_of_length_le hle, List.mem_eraseDups]

/-- The Monochrome variant asks of the palette what it asks of the pixels (R176). -/
theorem monochrome_iff : monochrome cfg pk ↔
    tooManyColors pk = false ∧ ∀ c ∈ palette cfg pk, (monoOf cfg c).isSome = true := by
  have hmany : pk.eraseDups.length ≤ 16 ↔ tooManyColors pk = false := by simp [tooManyColors]
  rw [monochrome, hmany]
  refine and_congr_right fun h => ?_
  simp only [mem_palette_iff cfg h]

/-- Opaque black and opaque white are in a legal `MONO_MAP` (R179). -/
theorem monoOf_of_wf (hcfg : cfg.wf = true) : monoOf cfg 0xC0 = some 0 ∧ monoOf cfg 0xFF = some 255 := by
  simp only [Config.wf, Bool.and_eq_true] at hcfg
  obtain ⟨-, hmap⟩ := hcfg
  obtain ⟨hblack, hwhite⟩ :
      cfg.monoMap.lookup (0xC0 : Byte) = some false ∧ cfg.monoMap.lookup (0xFF : Byte) = some true :=
    of_decide_eq_true hmap
  exact ⟨by rw [monoOf, hblack], by rw [monoOf, hwhite]⟩

/-- The format `f` can hold the packed pixels `pk`: monochrome pixels for format 0, a palette of all colours that is
short enough for formats 2 to 4. -/
structure Suits (cfg : Config) (pk : List Byte) (f : Nat) : Prop where
  le : f ≤ 4
  mono : f = 0 → ∀ c ∈ pk, (monoOf cfg c).isSome = true
  colors : 2 ≤ f → (∀ c ∈ pk, c ∈ palette cfg pk) ∧ (palette cfg pk).length ≤ maxPalette f

/-- The format that `CLS.FMT` chooses can hold the image (R176). -/
theorem suits_of_classify (hcfg : cfg.wf = true)
    (h : classify cfg var (tooManyColors pk) (palette cfg pk) = .ok f) : Suits cfg pk f := by
  obtain rfl | rfl : var = 0 ∨ var = 1 := BitVec.eq_zero_or_eq_one var
  · rw [classify_monochrome] at h
    split at h
    case isTrue hmono =>
      cases h
      obtain ⟨-, hmono⟩ := monochrome_iff.mpr hmono
      exact ⟨by decide, fun _ => hmono, fun h2 => absurd h2 (by decide)⟩
    case isFalse => cases h
  · cases hmany : tooManyColors pk with
    | true =>
      rw [hmany, classify_color_tooMany] at h
      cases h
      exact ⟨by decide, fun h0 => absurd h0 (by decide), fun h2 => absurd h2 (by decide)⟩
    | false =>
      rw [hmany, classify_color] at h
      have hall : ∀ c ∈ pk, c ∈ palette cfg pk := fun c => (mem_palette_iff cfg hmany).mpr
      obtain ⟨hblack, hwhite⟩ := monoOf_of_wf hcfg
      split_ifs at h with hbw h2 h4 <;> cases h
      · refine ⟨by decide, fun _ c hc => ?_, fun h2 => absurd h2 (by decide)⟩
        rcases hbw c (hall c hc) with rfl | rfl
        · rw [hblack]; rfl
        · rw [hwhite]; rfl
      · exact ⟨by decide, fun h0 => absurd h0 (by decide), fun _ => ⟨hall, h2⟩⟩
      · exact ⟨by decide, fun h0 => absurd h0 (by decide), fun _ => ⟨hall, h4⟩⟩
      · exact ⟨by decide, fun h0 => absurd h0 (by decide), fun _ => ⟨hall, palette_length_le cfg pk⟩⟩

/-- There is a format for every image that the variant accepts (R176). -/
theorem exists_classify_eq_ok (h : var = 1 ∨ monochrome cfg pk) :
    ∃ f, classify cfg var (tooManyColors pk) (palette cfg pk) = .ok f := by
  obtain rfl | rfl : var = 0 ∨ var = 1 := BitVec.eq_zero_or_eq_one var
  · have hmono : monochrome cfg pk := h.resolve_left (by decide)
    exact ⟨0, by rw [classify_monochrome, if_pos (monochrome_iff.mp hmono)]⟩
  · cases tooManyColors pk with
    | true => exact ⟨1, classify_color_tooMany cfg _⟩
    | false => exact ⟨_, classify_color cfg _⟩

@[simp] theorem packedImage_length (cfg : Config) (img : List Pixel) : (packedImage cfg img).length = img.length := by
  simp [packedImage, normImage]

/-- An image that is there has a colour, or too many, so `CLS.FMT` does not miss one. -/
theorem colors_of_img (cfg : Config) (himg : img ≠ []) : tooManyColors (packedImage cfg img) = true ∨
    1 ≤ (palette cfg (packedImage cfg img)).length := by
  refine .inr (palette_length_pos cfg fun hnil => himg ?_)
  rw [← List.length_eq_zero_iff, ← packedImage_length cfg, hnil, List.length_nil]

/-- The Monochrome variant refuses every other image (R176). -/
theorem encodeFront_notMonochrome (himg : s.mem.img = .put img) (hne : img ≠ []) (hvar : s.regs.var = .put 0)
    (hw : s.regs.w = .put w) (hw0 : w ≠ 0) (h : ¬monochrome s.cfg (packedImage s.cfg img)) :
    encodeFront s = .error .notMonochrome := by
  have hclass : classify s.cfg 0 (tooManyColors (packedImage s.cfg img)) (palette s.cfg (packedImage s.cfg img)) =
      .error .notMonochrome := by
    rw [classify_monochrome, if_neg (monochrome_iff.not.mp h)]
  rw [encodeFront_of_img himg]
  have hvar' : (counted s img).regs.var = .put 0 := hvar
  have hw' : (counted s img).regs.w = .put w := hw
  have hpal : (counted s img).mem.pal = .put (palette s.cfg (packedImage s.cfg img)) := rfl
  have hmany : (counted s img).tooMany = tooManyColors (packedImage s.cfg img) := rfl
  have hcfg : (counted s img).cfg = s.cfg := rfl
  simp only [opClsFmt, hvar', hw', hpal, hmany, hcfg, Slot.read_put, ok_bind, error_bind,
    require_pos (one_le_toNat_iff.mpr hw0), require_pos (colors_of_img s.cfg hne), hclass]

/-- `ENCODE` past its own checks is its steps. -/
theorem opEncodeImage_of_checks {h : BitVec 8} (himg : s.mem.img = .put img) (hw : s.regs.w = .put w)
    (hh : s.regs.h = .put h) (hvar : s.regs.var = .put var) (harea : 1 ≤ w.toNat ∧ 1 ≤ h.toNat)
    (hlen : img.length = w.toNat * h.toNat) :
    opEncodeImage s = encodeFront s >>= fun u => u.regs.fmt.read >>= fun fmt => encodeBack fmt u := by
  simp only [opEncodeImage, himg, hw, hh, hvar, Slot.read_put, ok_bind, require_pos harea, require_pos hlen]

/-- The operations that make the stream check the shape of the packed image (R180, R181). -/
theorem encodeBack_shape {fmt : BitVec 8} {t : State} (h : encodeBack fmt u = .ok t) : ∃ pk w h,
    u.mem.pk = .put pk ∧ u.regs.w = .put w ∧ u.regs.h = .put h ∧ (1 ≤ w.toNat ∧ 1 ≤ h.toNat) ∧
      pk.length = w.toNat * h.toNat := by
  unfold encodeBack at h
  split at h
  · obtain ⟨s1, -, -, hgen, -⟩ := encodeMono_eq_ok.mp h
    obtain ⟨pk, w, h, pw, fmt, hpk, hw, hh, -, -, ⟨hw1, hh1, -⟩, ⟨-, -, hlen⟩, -⟩ := opGenMono_eq_ok.mp hgen
    exact ⟨pk, w, h, hpk, hw, hh, ⟨hw1, hh1⟩, hlen⟩
  · obtain ⟨s1, -, -, -, hgen, -⟩ := encodeValues_eq_ok.mp h
    obtain ⟨pk, fmt, w, h, pw, pal, hpk, -, hw, hh, -, -, ⟨hw1, hh1, -⟩, ⟨-, -, hlen⟩, -⟩ := opGenVal_eq_ok.mp hgen
    exact ⟨pk, w, h, hpk, hw, hh, ⟨hw1, hh1⟩, hlen⟩

/-- Steps of `ENCODE` that answer are `ENCODE`: they make its own checks, too. -/
theorem opEncodeImage_of_steps {t : State} (hfront : encodeFront s = .ok u)
    (hback : encodeBack u.regs.fmt.val u = .ok t) :
    opEncodeImage s = .ok t := by
  obtain ⟨img, var, w, f, himg, hvar, hw, -, -, -, rfl⟩ := encodeFront_eq_ok_iff.mp hfront
  obtain ⟨-, hmem, -, hw', hh'⟩ := (counted s img).setFormat_frame f w.toNat
  obtain ⟨hfmt, -, -⟩ := (counted s img).setFormat_regs f w.toNat
  obtain ⟨pk, w', h, hpk, hwu, hhu, harea, hlen⟩ := encodeBack_shape hback
  rw [hmem] at hpk
  obtain rfl : packedImage s.cfg img = pk := congrArg Slot.val hpk
  obtain rfl : w = w' := congrArg Slot.val (hw.symm.trans (hw'.symm.trans hwu))
  rw [packedImage_length] at hlen
  rw [hfmt] at hback
  exact opEncodeImage_eq_ok.mpr ⟨img, w, h, var, _, _, himg, hw, hh'.symm.trans hhu, hvar, harea, hlen, hfront, hfmt,
    hback⟩

theorem Slot.eq_put_of_valid {α : Type} {x : Slot α} (h : x.valid = true) : x = .put x.val := by
  rcases x with ⟨v, a⟩
  cases h
  rfl

end Sys2Proof.Machine
end

section
/-! SUPPORT. The stream of a padded image and its runs (43_container_encoder.md R240, 41_pixel_classifier_quantizer.md
R180, R181): which bytes stand in it, so that the steps of `ENCODE` before `CNT.ASM` pass their tests. -/

namespace Sys2Proof.Machine

variable {cfg : Config} {pk : List Byte} {f w h : Nat}

/-- The padded width of a width that fits in `W` fits in `PW` (R178). -/
theorem paddedWidth_bounds (hf : f ≤ 4) (hw : w ≤ 255) : w ≤ paddedWidth f w ∧ paddedWidth f w ≤ 256 := by
  obtain ⟨h0, h1, h2, h3, h4⟩ := Proofs.PixelFamily.paddedWidthIsTheNextMultiple w
  interval_cases f <;> omega

/-- The element of the stream that stands for the packed pixel `c` in format `f` (R180, R181). -/
def streamByte (cfg : Config) (pk : List Byte) (f : Nat) (c : Byte) : Byte :=
  if f = 0 then (monoOf cfg c).getD 0 else if f = 1 then c else indexByte (paletteIndex (palette cfg pk) c)

/-- The stream of `w · h` packed pixels in format `f` (R180, R181). -/
def stream (cfg : Config) (pk : List Byte) (f w h : Nat) : List Byte :=
  mapRows w (padRow w (paddedWidth f w) (streamByte cfg pk f)) h pk

theorem stream_length (hf : f ≤ 4) (hw : w ≤ 255) (hpk : pk.length = w * h) :
    (stream cfg pk f w h).length = paddedWidth f w * h :=
  padRows_length (paddedWidth_bounds hf hw).1 hpk

/-- An element of padded rows is padding or stands for an element of the rows. -/
theorem mem_padRows {g : Byte → Byte} {pw : Nat} {xs : List Byte} {x : Byte}
    (hx : x ∈ mapRows w (padRow w pw g) h xs) : x = 0 ∨ ∃ c ∈ xs, x = g c := by
  induction h generalizing xs with
  | zero => cases hx
  | succ h ih =>
    rw [mapRows_succ, padRow] at hx
    rcases List.mem_append.mp hx with hx | hx
    · rcases List.mem_append.mp hx with hx | hx
      · obtain ⟨c, hc, rfl⟩ := List.mem_map.mp hx
        exact .inr ⟨c, List.mem_of_mem_take hc, rfl⟩
      · exact .inl (List.eq_of_mem_replicate hx)
    · refine (ih hx).imp_right ?_
      rintro ⟨c, hc, rfl⟩
      exact ⟨c, List.mem_of_mem_drop hc, rfl⟩

/-- The stream of format 0 is black and white (R180). -/
theorem mem_stream_mono {x : Byte} (hx : x ∈ stream cfg pk 0 w h) : x = 0 ∨ x = 255 := by
  rcases mem_padRows hx with rfl | ⟨c, -, rfl⟩
  · exact .inl rfl
  · rw [streamByte, if_pos rfl, monoOf]
    split
    · exact .inr rfl
    · exact .inl rfl
    · exact .inl rfl

/-- In formats 2 to 4 an element of the stream is a place of its colour in the palette (R181). -/
theorem streamByte_index (h2 : 2 ≤ f) {c : Byte} (hc : c ∈ palette cfg pk) :
    (streamByte cfg pk f c).toNat < (palette cfg pk).length ∧
      (palette cfg pk).getD (streamByte cfg pk f c).toNat 0 = c := by
  have hplace := getElem?_paletteIndex hc
  obtain ⟨hlt, -⟩ := List.getElem?_eq_some_iff.mp hplace
  have hlen := palette_length_le cfg pk
  have hbyte : (streamByte cfg pk f c).toNat = paletteIndex (palette cfg pk) c := by
    rw [streamByte, if_neg (by omega), if_neg (by omega), indexByte_of_lt (by omega)]
    exact Nat.mod_eq_of_lt (by omega)
  rw [hbyte, List.getD_eq_getElem?_getD, hplace]
  exact ⟨hlt, rfl⟩

/-- Formats 2 to 4 allow as many palette entries as their values can name (30_encoding.md R96). -/
theorem maxPalette_eq_two_pow (h2 : 2 ≤ f) (hf : f ≤ 4) : maxPalette f = 2 ^ valueWidth f := by
  interval_cases f <;> rfl

theorem isChunkWidth_valueWidth (h1 : 1 ≤ f) (hf : f ≤ 4) : isChunkWidth (valueWidth f) := by
  interval_cases f <;> decide

/-- The elements of the stream of formats 1 to 4 fit in the width of the values region. -/
theorem mem_stream_lt (hs : Suits cfg pk f) (h1 : 1 ≤ f) {x : Byte} (hx : x ∈ stream cfg pk f w h) :
    x.toNat < 2 ^ valueWidth f := by
  rcases mem_padRows hx with rfl | ⟨c, hc, rfl⟩
  · exact Nat.two_pow_pos _
  · rcases Nat.eq_or_lt_of_le h1 with rfl | h2
    · exact (streamByte cfg pk 1 c).isLt
    · obtain ⟨hall, hlen⟩ := hs.colors h2
      rw [← maxPalette_eq_two_pow h2 hs.le]
      exact (streamByte_index h2 (hall c hc)).1.trans_le hlen

/-- The values of the runs are elements of the stream. -/
theorem mem_of_mem_pairsFrom {cur x : Byte} {cnt : Nat} {xs : List Byte}
    (hx : x ∈ (pairsFrom cur cnt xs).map Prod.fst) : x ∈ cur :: xs := by
  induction xs generalizing cur cnt with
  | nil => exact hx
  | cons y ys ih =>
    by_cases hy : y = cur
    · rw [pairsFrom, if_pos hy] at hx
      exact (List.mem_cons.mp (ih hx)).elim (fun h => h ▸ List.mem_cons_self)
        fun h => List.mem_cons_of_mem _ (List.mem_cons_of_mem _ h)
    · rw [pairsFrom, if_neg hy, List.map_cons] at hx
      exact (List.mem_cons.mp hx).elim (fun h => h ▸ List.mem_cons_self) fun h => List.mem_cons_of_mem _ (ih h)

theorem mem_of_mem_runsMulti {x : Byte} {str : List Byte} (hx : x ∈ (runsMulti str).1) : x ∈ str := by
  cases str with
  | nil => cases hx
  | cons y ys => exact mem_of_mem_pairsFrom hx

end Sys2Proof.Machine
end

section
/-! SUPPORT. The steps of `ENCODE` from the choice of the format up to `CNT.ASM` (43_container_encoder.md R240): from a
format that suits the image they run without a fault, and leave the regions of the container. -/

namespace Sys2Proof.Machine

/-- The operands that the choice of the format leaves for the steps after it: `w · h` packed pixels `pk` and a format
`f` that suits them. -/
structure Chosen (u : State) (pk : List Byte) (w h : BitVec 8) (f : Nat) : Prop where
  suits : Suits u.cfg pk f
  area : 1 ≤ w.toNat ∧ 1 ≤ h.toNat
  length : pk.length = w.toNat * h.toNat
  pk_eq : u.mem.pk = .put pk
  w_eq : u.regs.w = .put w
  h_eq : u.regs.h = .put h
  pw_eq : u.regs.pw = .put (BitVec.ofNat 9 (paddedWidth f w.toNat))
  fmt_eq : u.regs.fmt = .put (BitVec.ofNat 8 f)
  vn_eq : 1 ≤ f → u.regs.vn = .put (BitVec.ofNat 4 (valueWidth f))
  pal_eq : 2 ≤ f → u.mem.pal = .put (palette u.cfg pk)

/-- The runs of a stream, those of the toggled stream where `us = 1`, and their values (R240). -/
structure Coded (cfg : Config) (f pw : Nat) (str : List Byte) (us : BitVec 1) (run : List Nat) (vals : List Byte) :
    Prop where
  mono : f = 0 → run = runsBinary (if us = 1 then unscreen pw str else str) ∧ (us = 1 → cfg.unscreen ≠ .off)
  values : 1 ≤ f → us = 0 ∧ run = (runsMulti str).2 ∧ vals = (runsMulti str).1

/-- The runs of the stream as it is (R240). -/
def plainRuns (f : Nat) (str : List Byte) : List Nat := if f = 0 then runsBinary str else (runsMulti str).2

/-- What the steps up to `CNT.ASM` leave in `v` when they begin in `u`: the operands of `CNT.ASM`. -/
structure Prepared (u v : State) (pk : List Byte) (w h : BitVec 8) (f n : Nat) (us : BitVec 1) (run : List Nat)
    (vals : List Byte) : Prop where
  cfg : v.cfg = u.cfg
  fault : v.fault = u.fault
  img : v.mem.img = u.mem.img
  w_eq : v.regs.w = .put w
  h_eq : v.regs.h = .put h
  fmt_eq : v.regs.fmt = .put (BitVec.ofNat 8 f)
  n_eq : v.regs.n = .put (BitVec.ofNat 7 n)
  us_eq : v.regs.us = .put us
  rleb_eq : v.mem.rleb = .put (packSeq run n)
  valb_eq : 1 ≤ f → v.mem.valb = .put (packGroups (vals.map BitVec.toNat) (valueWidth f))
  pal_eq : 2 ≤ f → v.mem.pal = .put (palette u.cfg pk)
  width : isChunkWidth n
  coded : Coded u.cfg f (paddedWidth f w.toNat) (stream u.cfg pk f w.toNat h.toNat) us run vals
  short : (packSeq run n).length ≤ (packSeq (plainRuns f (stream u.cfg pk f w.toNat h.toNat)) 1).length

variable {u : State} {pk : List Byte} {w h : BitVec 8} {f : Nat}

theorem toNat_fmt (hf : f ≤ 4) : (BitVec.ofNat 8 f).toNat = f := Nat.mod_eq_of_lt (by omega)

theorem fmt_eq_zero_iff (hf : f ≤ 4) : BitVec.ofNat 8 f = 0 ↔ f = 0 := by
  rw [← BitVec.toNat_inj, toNat_fmt hf]
  rfl

theorem toNat_pw (hf : f ≤ 4) (w : BitVec 8) :
    (BitVec.ofNat 9 (paddedWidth f w.toNat)).toNat = paddedWidth f w.toNat := by
  have hw := w.isLt
  obtain ⟨-, hle⟩ := paddedWidth_bounds (w := w.toNat) hf (by omega)
  exact Nat.mod_eq_of_lt (by omega)

namespace Chosen

theorem pw_bounds (hc : Chosen u pk w h f) : w.toNat ≤ paddedWidth f w.toNat ∧ paddedWidth f w.toNat ≤ 256 := by
  have hw := w.isLt
  exact paddedWidth_bounds hc.suits.le (by omega)

theorem stream_length (hc : Chosen u pk w h f) :
    (stream u.cfg pk f w.toNat h.toNat).length = paddedWidth f w.toNat * h.toNat := by
  have hw := w.isLt
  exact Machine.stream_length hc.suits.le (by omega) hc.length

theorem pw_area (hc : Chosen u pk w h f) :
    1 ≤ w.toNat ∧ 1 ≤ h.toNat ∧ 1 ≤ (BitVec.ofNat 9 (paddedWidth f w.toNat)).toNat := by
  obtain ⟨hw1, hh1⟩ := hc.area
  obtain ⟨hle, -⟩ := hc.pw_bounds
  rw [toNat_pw hc.suits.le]
  exact ⟨hw1, hh1, hw1.trans hle⟩

theorem grid_area (hc : Chosen u pk w h f) :
    1 ≤ (BitVec.ofNat 9 (paddedWidth f w.toNat)).toNat ∧ 1 ≤ h.toNat :=
  have ⟨_, hh1, hpw1⟩ := hc.pw_area
  ⟨hpw1, hh1⟩

/-- `GEN.MONO` writes the stream of format 0. -/
theorem opGenMono_eq (hc : Chosen u pk w h 0) : opGenMono u = .ok (u.setStr (stream u.cfg pk 0 w.toNat h.toNat)) := by
  obtain ⟨hle, -⟩ := hc.pw_bounds
  have hpw := toNat_pw (f := 0) (by decide) w
  refine opGenMono_eq_ok.mpr ⟨pk, w, h, _, _, hc.pk_eq, hc.w_eq, hc.h_eq, hc.pw_eq, hc.fmt_eq, hc.pw_area,
    ⟨rfl, hpw.symm ▸ hle, hc.length⟩, hc.suits.mono rfl, ?_⟩
  rw [hpw]
  rfl

/-- `GEN.VAL` writes the stream of formats 1 to 4. -/
theorem opGenVal_eq (hc : Chosen u pk w h f) (h1 : 1 ≤ f) :
    opGenVal u = .ok (u.setStr (stream u.cfg pk f w.toNat h.toNat)) := by
  have hf := hc.suits.le
  obtain ⟨hle, -⟩ := hc.pw_bounds
  have hpw := toNat_pw hf w
  obtain ⟨pal, hpal, hpal'⟩ := Slot.exists_readIf_eq_ok [] hc.pal_eq
  have hbyte : streamByte u.cfg pk f = fun c => if f = 1 then c else indexByte (paletteIndex pal c) := by
    funext c
    rw [streamByte, if_neg (Nat.ne_zero_of_lt h1)]
    by_cases hf1 : f = 1
    · rw [if_pos hf1, if_pos hf1]
    · rw [if_neg hf1, if_neg hf1, hpal' (by omega)]
  refine opGenVal_eq_ok.mpr ⟨pk, _, w, h, _, pal, hc.pk_eq, hc.fmt_eq, hc.w_eq, hc.h_eq, hc.pw_eq, ?_, hc.pw_area, ?_⟩
  · rw [toNat_fmt hf]
    exact Slot.readIf_eq_ok.mp hpal
  · rw [toNat_fmt hf, hpw, stream, hbyte]
    exact ⟨⟨⟨h1, hf⟩, hle, hc.length⟩, fun h2 => hpal' h2 ▸ (hc.suits.colors h2).1, rfl⟩

/-- The steps for format 0, with the two answers of the search. -/
theorem exists_prepared_mono (hc : Chosen u pk w h 0) : ∃ v n us run vals,
    runBodies [.genMono, .rleBin, .cntSearch] u = .ok v ∧ Prepared u v pk w h 0 n us run vals := by
  have hpw := toNat_pw (f := 0) (by decide) w
  have hlen := hc.stream_length
  have hstr : ∀ x ∈ stream u.cfg pk 0 w.toNat h.toNat, x = 0 ∨ x = 255 := fun x => mem_stream_mono
  have hgen := hc.opGenMono_eq
  generalize hs : stream u.cfg pk 0 w.toNat h.toNat = str at hlen hstr hgen
  have hrle : opRleBin (u.setStr str) = .ok ((u.setStr str).setRun (runsBinary str)) :=
    opRleBin_eq_ok.mpr ⟨str, rfl, hstr, rfl⟩
  obtain ⟨n, hn, hsearch⟩ := opCntSearch_completes (s := (u.setStr str).setRun (runsBinary str))
    { fmt_eq := hc.fmt_eq
      run_eq := rfl
      screen_eq := fun _ => ⟨rfl, hc.pw_eq, hc.h_eq⟩
      fmt_le := by decide
      run_pos := runsBinary_pos _
      area := fun _ => hc.grid_area
      shape := fun _ => ⟨hpw.symm ▸ hlen, hstr⟩ }
  have hrun {p : Packed} (hp : winner u.cfg 0 (paddedWidth 0 w.toNat) str (runsBinary str) n = p) :
      runBodies [.genMono, .rleBin, .cntSearch] u = .ok (((u.setStr str).setRun (runsBinary str)).setWinner p) := by
    rw [hpw] at hsearch
    rw [← hp]
    simp only [runBodies_cons, bind_runBodies_nil, opBody, hgen, ok_bind, hrle, hsearch]
    rfl
  have hshort : (packSeq (runsBinary str) n).length ≤ (packSeq (runsBinary str) 1).length := hn.le 1 (by simp)
  by_cases hwin : screened u.cfg 0 ∧
      (fifthBytes (paddedWidth 0 w.toNat) str).length < (packSeq (runsBinary str) n).length
  · have ⟨⟨_, hpolicy⟩, hshorter⟩ := hwin
    refine ⟨_, 1, 1, runsBinary (unscreen (paddedWidth 0 w.toNat) str), [], hrun (winner_of_fifth hwin), ?_⟩
    refine ⟨rfl, rfl, rfl, hc.w_eq, hc.h_eq, hc.fmt_eq, rfl, rfl, rfl, fun h1 => absurd h1 (by decide),
      fun h2 => absurd h2 (by decide), .inl rfl,
      ⟨fun _ => ⟨?_, fun _ => hpolicy⟩, fun h1 => absurd h1 (by decide)⟩, ?_⟩
    · rw [hs, if_pos rfl]
    · rw [hs]
      exact hshorter.le.trans hshort
  · refine ⟨_, n, 0, runsBinary str, [], hrun (winner_of_plain hwin), ?_⟩
    refine ⟨rfl, rfl, rfl, hc.w_eq, hc.h_eq, hc.fmt_eq, rfl, rfl, rfl, fun h1 => absurd h1 (by decide),
      fun h2 => absurd h2 (by decide), by simpa [isChunkWidth] using hn.mem,
      ⟨fun _ => ⟨?_, fun h1 => absurd h1 (by decide)⟩, fun h1 => absurd h1 (by decide)⟩, ?_⟩
    · rw [hs, if_neg (by decide)]
    · rw [hs]
      exact hshort

/-- The steps for formats 1 to 4, whose search has no fifth candidate. -/
theorem exists_prepared_values (hc : Chosen u pk w h f) (h1 : 1 ≤ f) : ∃ v n us run vals,
    runBodies [.genVal, .rleMv, .cntSearch, .fixPack] u = .ok v ∧ Prepared u v pk w h f n us run vals := by
  have hf := hc.suits.le
  have hfmt := toNat_fmt hf
  have hgen := hc.opGenVal_eq h1
  have hlt : ∀ x ∈ stream u.cfg pk f w.toNat h.toNat, x.toNat < 2 ^ valueWidth f := fun x => mem_stream_lt hc.suits h1
  generalize hs : stream u.cfg pk f w.toNat h.toNat = str at hgen hlt
  have hplain : ¬screened u.cfg (BitVec.ofNat 8 f).toNat := fun ⟨h0, _⟩ =>
    Nat.ne_zero_of_lt h1 (hfmt.symm.trans h0)
  have hrle : opRleMv (u.setStr str) = .ok (((u.setStr str).setRun (runsMulti str).2).setVals (runsMulti str).1) :=
    opRleMv_eq_ok.mpr ⟨str, rfl, rfl⟩
  obtain ⟨n, hn, hsearch⟩ := opCntSearch_completes (str := []) (pw := 0) (h := 0)
    (s := ((u.setStr str).setRun (runsMulti str).2).setVals (runsMulti str).1)
    { fmt_eq := hc.fmt_eq
      run_eq := rfl
      screen_eq := fun hsc => absurd hsc hplain
      fmt_le := hfmt.symm ▸ hf
      run_pos := runsMulti_pos str
      area := fun hsc => absurd hsc hplain
      shape := fun hsc => absurd hsc hplain }
  rw [State.setVals_cfg, State.setRun_cfg, State.setStr_cfg, winner_of_plain fun hsc => hplain hsc.1] at hsearch
  have hvn : (BitVec.ofNat 4 (valueWidth f)).toNat = valueWidth f := by interval_cases f <;> rfl
  have hpack := opFixPack_eq_ok.mpr ⟨(runsMulti str).1, _,
    show ((((u.setStr str).setRun (runsMulti str).2).setVals (runsMulti str).1).setWinner
      ⟨n, 0, packSeq (runsMulti str).2 n⟩).mem.vals = _ from rfl, hc.vn_eq h1,
    hvn.symm ▸ isChunkWidth_valueWidth h1 hf, fun x hx => hvn.symm ▸ hlt x (mem_of_mem_runsMulti hx), rfl⟩
  refine ⟨_, n, 0, (runsMulti str).2, (runsMulti str).1, Eq.trans ?_ hpack, ?_⟩
  · simp only [runBodies_cons, bind_runBodies_nil, opBody, hgen, ok_bind, hrle, hsearch]
  · refine ⟨rfl, rfl, rfl, hc.w_eq, hc.h_eq, hc.fmt_eq, rfl, rfl, rfl, fun _ => ?_, hc.pal_eq,
      by simpa [isChunkWidth] using hn.mem, ⟨fun h0 => absurd h1 (h0 ▸ by decide), fun _ => ⟨rfl, ?_⟩⟩, ?_⟩
    · rw [hvn]
      rfl
    · rw [hs]
      exact ⟨rfl, rfl⟩
    · rw [hs, plainRuns, if_neg (Nat.ne_zero_of_lt h1)]
      exact hn.le 1 (by simp)

/-- The steps from the choice of the format up to `CNT.ASM` run without a fault. -/
theorem exists_prepared (hc : Chosen u pk w h f) : ∃ v n us run vals,
    runBodies (encodeMiddleSteps (BitVec.ofNat 8 f)) u = .ok v ∧ Prepared u v pk w h f n us run vals := by
  unfold encodeMiddleSteps
  rcases Nat.eq_zero_or_pos f with rfl | h1
  · exact hc.exists_prepared_mono
  · rw [if_neg ((fmt_eq_zero_iff hc.suits.le).not.mpr (Nat.ne_zero_of_lt h1))]
    exact hc.exists_prepared_values h1

end Chosen

end Sys2Proof.Machine
end

section
/-! SUPPORT. The lengths of the regions (43_container_encoder.md R237, R239): a run takes at most two bits per element
of the stream, so small images fit in a container. -/

namespace Sys2Proof.Machine

variable {run : List Nat} {n : Nat}

theorem bitlength_le {v : Nat} (hv : 1 ≤ v) : bitlength v ≤ v := by
  obtain ⟨-, hlow, -⟩ := bitlength_bounds hv
  have hpow := Nat.lt_two_pow_self (n := bitlength v - 1)
  omega

theorem codeWidth_one (v : Nat) : codeWidth v 1 = bitlength v := Nat.div_one _

/-- At width 1 the codes of runs take at most two groups for each element, less one for each run. -/
theorem chopAll_length_add_le (hrun : ∀ r ∈ run, 1 ≤ r) : (chopAll run 1).length + run.length ≤ 2 * run.sum := by
  induction run with
  | nil => exact le_rfl
  | cons r run ih =>
    obtain ⟨hr, hrun⟩ := List.forall_mem_cons.mp hrun
    have hcode : (chop r 1).length = 2 * bitlength r - 1 := by rw [chop_length (.inl rfl) hr, codeWidth_one]
    have hle := bitlength_le hr
    have hrest := ih hrun
    rw [chopAll] at hrest ⊢
    rw [List.flatMap_cons, List.length_append, List.length_cons, List.sum_cons, hcode]
    omega

theorem lt_of_mem_chopAll {g : Nat} (hg : g ∈ chopAll run n) : g < 2 ^ n := by
  obtain ⟨v, -, hgv⟩ := List.mem_flatMap.mp hg
  exact lt_of_mem_chop hgv

theorem packSeq_length (hn : isChunkWidth n) (run : List Nat) :
    (packSeq run n).length = ceilDiv ((chopAll run n).length * n) 8 :=
  packGroups_length hn fun _ => lt_of_mem_chopAll

/-- There are no more runs than elements. -/
theorem length_le_sum (hrun : ∀ r ∈ run, 1 ≤ r) : run.length ≤ run.sum := by
  have hle := List.card_nsmul_le_sum run 1 hrun
  rwa [smul_eq_mul, Nat.mul_one] at hle

theorem runsMulti_sum (str : List Byte) : (runsMulti str).2.sum = str.length := by
  rw [← runStream_length (runsMulti_length str).symm, runStream_runsMulti]

end Sys2Proof.Machine
end

section
/-! SUPPORT. `CNT.ASM` on what the steps before it leave (43_container_encoder.md R237), and with it the end of
`ENCODE`. -/

namespace Sys2Proof.Machine

/-- The values region of the container (R237). -/
def valueRegion (f : Nat) (vals : List Byte) : List Byte :=
  if 1 ≤ f then packGroups (vals.map BitVec.toNat) (valueWidth f) else []

/-- The palette region of the container (R237). -/
def paletteRegion (cfg : Config) (pk : List Byte) (f : Nat) : List Byte := if 2 ≤ f then palette cfg pk else []

theorem valueRegion_of_one_le {f : Nat} (h1 : 1 ≤ f) (vals : List Byte) :
    valueRegion f vals = packGroups (vals.map BitVec.toNat) (valueWidth f) := if_pos h1

theorem paletteRegion_of_two_le {f : Nat} (h2 : 2 ≤ f) (cfg : Config) (pk : List Byte) :
    paletteRegion cfg pk f = palette cfg pk := if_pos h2

@[simp] theorem valueRegion_zero (vals : List Byte) : valueRegion 0 vals = [] := rfl

@[simp] theorem paletteRegion_one (cfg : Config) (pk : List Byte) : paletteRegion cfg pk 1 = [] := rfl

/-- The container of three regions (R237). -/
def container (w h : BitVec 8) (n us f : Nat) (rle vb pb : List Byte) : List Byte :=
  headerBytes w.toNat h.toNat n us f (8 + rle.length) (8 + rle.length + vb.length) ++ rle ++ vb ++ pb

/-- The state after `CNT.ASM` has assembled three regions (R237). -/
def State.setContainer (s : State) (w h : BitVec 8) (n us f : Nat) (rle vb pb : List Byte) : State :=
  ((s.setBuf (container w h n us f rle vb pb)).setF4 (BitVec.ofNat 16 (8 + rle.length))).setF6
    (BitVec.ofNat 16 (8 + rle.length + vb.length))

/-- A container that `CNT.ASM` accepts (R237, R239). -/
abbrev containerFits (cfg : Config) (rle vb pb : List Byte) : Prop :=
  8 + rle.length + vb.length + pb.length ≤ cfg.containerMax ∧ 8 + rle.length + vb.length ≤ 65535

theorem toNat_chunkWidth {n : Nat} (hn : isChunkWidth n) : (BitVec.ofNat 7 n).toNat = n := by
  rcases hn with rfl | rfl | rfl | rfl <;> rfl

variable {s u v : State} {pk : List Byte} {w h : BitVec 8} {f n : Nat} {us : BitVec 1} {run : List Nat}
  {vals : List Byte}

/-- The palette that the choice of the format leaves has a legal length. -/
theorem Chosen.paletteFits (hc : Chosen u pk w h f) : paletteFits f (paletteRegion u.cfg pk f).length := by
  intro h2
  have hne : pk ≠ [] := by
    rintro rfl
    have hpos := Nat.mul_pos hc.area.1 hc.area.2
    rw [← hc.length] at hpos
    exact absurd hpos (by decide)
  rw [paletteRegion_of_two_le h2]
  exact ⟨palette_length_pos u.cfg hne, (hc.suits.colors h2).2⟩

namespace Prepared

/-- Only format 0 has the unscreen bit set (R237). -/
theorem us_or_fmt (hp : Prepared u v pk w h f n us run vals) : us = 0 ∨ BitVec.ofNat 8 f = 0 := by
  rcases Nat.eq_zero_or_pos f with rfl | h1
  · exact .inr rfl
  · exact .inl (hp.coded.values h1).1

theorem valb_read (hp : Prepared u v pk w h f n us run vals) :
    v.mem.valb.readIf (1 ≤ f) [] = .ok (valueRegion f vals) := by
  unfold valueRegion
  by_cases h1 : 1 ≤ f
  · rw [Slot.readIf_pos h1, if_pos h1, hp.valb_eq h1, Slot.read_put]
  · rw [Slot.readIf_neg h1, if_neg h1]

theorem pal_read (hp : Prepared u v pk w h f n us run vals) :
    v.mem.pal.readIf (2 ≤ f) [] = .ok (paletteRegion u.cfg pk f) := by
  unfold paletteRegion
  by_cases h2 : 2 ≤ f
  · rw [Slot.readIf_pos h2, if_pos h2, hp.pal_eq h2, Slot.read_put]
  · rw [Slot.readIf_neg h2, if_neg h2]

theorem valb_length (hp : Prepared u v pk w h f n us run vals) (hf : f ≤ 4) :
    (if v.regs.fmt.val = 0 then 0 else v.mem.valb.val.length) = (valueRegion f vals).length := by
  rw [hp.fmt_eq]
  simp only [fmt_eq_zero_iff hf]
  split
  case isTrue h0 => rw [h0, valueRegion_zero, List.length_nil]
  case isFalse h0 =>
    have h1 : 1 ≤ f := Nat.one_le_iff_ne_zero.mpr h0
    rw [hp.valb_eq h1, valueRegion_of_one_le h1]

theorem pal_length (hp : Prepared u v pk w h f n us run vals) (hf : f ≤ 4) :
    (if 2 ≤ v.regs.fmt.val.toNat then v.mem.pal.val.length else 0) = (paletteRegion u.cfg pk f).length := by
  rw [hp.fmt_eq]
  simp only [toNat_fmt hf]
  split
  case isTrue h2 => rw [hp.pal_eq h2, paletteRegion_of_two_le h2]
  case isFalse h2 => rw [paletteRegion, if_neg h2, List.length_nil]

/-- `CNT.ASM` after these steps tests the length alone. -/
theorem opCntAsm_eq (hp : Prepared u v pk w h f n us run vals) (hc : Chosen u pk w h f) :
    opCntAsm v = require (containerFits u.cfg (packSeq run n) (valueRegion f vals) (paletteRegion u.cfg pk f))
      .containerTooLarge >>= fun _ =>
        .ok (v.setContainer w h n us.toNat f (packSeq run n) (valueRegion f vals) (paletteRegion u.cfg pk f)) := by
  have hf := hc.suits.le
  simp only [opCntAsm, hp.w_eq, hp.h_eq, hp.n_eq, hp.us_eq, hp.fmt_eq, hp.rleb_eq, Slot.read_put, ok_bind, toNat_fmt hf,
    hp.valb_read, hp.pal_read, require_pos hc.area, toNat_chunkWidth hp.width, require_pos hp.width, require_pos hf,
    require_pos hp.us_or_fmt, require_pos hc.paletteFits, hp.cfg]
  rfl

end Prepared

/-- The values of the runs fit in the width of the values region. -/
theorem lt_of_mem_vals (hc : Chosen u pk w h f) (hp : Prepared u v pk w h f n us run vals) (h1 : 1 ≤ f) :
    ∀ g ∈ vals.map BitVec.toNat, g < 2 ^ valueWidth f := by
  obtain ⟨-, -, rfl⟩ := hp.coded.values h1
  intro g hg
  obtain ⟨x, hx, rfl⟩ := List.mem_map.mp hg
  exact mem_stream_lt hc.suits h1 (mem_of_mem_runsMulti hx)

/-- The padded stream has at most 256 · 255 elements. -/
theorem Chosen.padded_le (hc : Chosen u pk w h f) : paddedWidth f w.toNat * h.toNat ≤ 256 * 255 :=
  Nat.mul_le_mul hc.pw_bounds.2 (Nat.le_of_lt_succ h.isLt)

/-- A monochrome container takes two bits for each pixel at most, the phantom counted (R211). -/
theorem container_length_le_mono (hc : Chosen u pk w h 0) (hp : Prepared u v pk w h 0 n us run vals) :
    8 + (packSeq run n).length ≤ 65535 := by
  have hrle := hp.short
  have hbits := chopAll_length_add_le (runsBinary_pos (stream u.cfg pk 0 w.toNat h.toNat))
  have hgrid := hc.padded_le
  rw [runsBinary_sum fun x => mem_stream_mono, hc.stream_length] at hbits
  rw [packSeq_length (.inl rfl), Nat.mul_one, plainRuns, if_pos rfl, ceilDiv] at hrle
  omega

/-- In the other formats a run takes two bits for each of its pixels at most, and the width of a value, which is 8 only
where the width is not padded. -/
theorem container_length_le_values (hc : Chosen u pk w h f) (hp : Prepared u v pk w h f n us run vals) (h1 : 1 ≤ f)
    (hsmall : w.toNat * h.toNat ≤ 50000) :
    8 + (packSeq run n).length + (valueRegion f vals).length + (paletteRegion u.cfg pk f).length ≤ 65535 := by
  have hf := hc.suits.le
  have hrle := hp.short
  have hpos := runsMulti_pos (stream u.cfg pk f w.toNat h.toNat)
  have hbits := chopAll_length_add_le hpos
  have hcount := length_le_sum hpos
  have hgrid := hc.padded_le
  obtain ⟨-, -, hvals⟩ := hp.coded.values h1
  rw [runsMulti_sum, hc.stream_length] at hbits hcount
  rw [packSeq_length (.inl rfl), Nat.mul_one, plainRuns, if_neg (Nat.ne_zero_of_lt h1), ceilDiv] at hrle
  have hregion : (valueRegion f vals).length = ceilDiv (vals.length * valueWidth f) 8 := by
    rw [valueRegion_of_one_le h1, packGroups_length (isChunkWidth_valueWidth h1 hf) (lt_of_mem_vals hc hp h1),
      List.length_map]
  rw [hregion, hvals, ← runsMulti_length, ceilDiv]
  generalize (runsMulti (stream u.cfg pk f w.toNat h.toNat)).2 = runs at hbits hcount hrle
  rcases Nat.eq_or_lt_of_le h1 with rfl | h2
  · obtain ⟨-, hpw, -⟩ := Proofs.PixelFamily.paddedWidthIsTheNextMultiple w.toNat
    rw [hpw] at hbits hcount
    simp only [valueWidth, paletteRegion_one, List.length_nil]
    omega
  · have hvn : runs.length * valueWidth f ≤ runs.length * 4 :=
      Nat.mul_le_mul_left _ (by interval_cases f <;> decide)
    have hpal : (paletteRegion u.cfg pk f).length ≤ 16 := by
      rw [paletteRegion_of_two_le h2]
      exact palette_length_le u.cfg pk
    omega

/-- The container of an image of at most 50000 pixels is at most 65535 bytes long. -/
theorem container_length_le (hc : Chosen u pk w h f) (hp : Prepared u v pk w h f n us run vals)
    (hsmall : w.toNat * h.toNat ≤ 50000) :
    8 + (packSeq run n).length + (valueRegion f vals).length + (paletteRegion u.cfg pk f).length ≤ 65535 := by
  rcases Nat.eq_zero_or_pos f with rfl | h1
  · exact container_length_le_mono hc hp
  · exact container_length_le_values hc hp h1 hsmall

/-- `ENCODE` of an image, taken apart: the steps up to the choice of the format `f` end in `u`, those before `CNT.ASM`
in `v`. -/
structure Encoding (s : State) (img : List Pixel) (w h : BitVec 8) (f : Nat) (u v : State) (n : Nat) (us : BitVec 1)
    (run : List Nat) (vals : List Byte) : Prop where
  front : encodeFront s = .ok u
  chosen : Chosen u (packedImage s.cfg img) w h f
  middle : runBodies (encodeMiddleSteps (BitVec.ofNat 8 f)) u = .ok v
  prepared : Prepared u v (packedImage s.cfg img) w h f n us run vals
  encode : opEncodeImage s = opCntAsm v
  cfg : u.cfg = s.cfg
  fault : u.fault = s.fault
  img : u.mem.img = s.mem.img

namespace Encoding

variable {img : List Pixel}

/-- `ENCODE` completes where the container fits (R237). -/
theorem encode_ok (he : Encoding s img w h f u v n us run vals)
    (hfits : containerFits u.cfg (packSeq run n) (valueRegion f vals) (paletteRegion u.cfg (packedImage s.cfg img) f)) :
    opEncodeImage s = .ok (v.setContainer w h n us.toNat f (packSeq run n) (valueRegion f vals)
      (paletteRegion u.cfg (packedImage s.cfg img) f)) := by
  rw [he.encode, he.prepared.opCntAsm_eq he.chosen, require_pos hfits, ok_bind]

/-- `ENCODE` faults where it does not (R237, R239). -/
theorem encode_error (he : Encoding s img w h f u v n us run vals)
    (hbig : ¬containerFits u.cfg (packSeq run n) (valueRegion f vals)
      (paletteRegion u.cfg (packedImage s.cfg img) f)) : opEncodeImage s = .error .containerTooLarge := by
  rw [he.encode, he.prepared.opCntAsm_eq he.chosen, require_neg hbig, error_bind]

end Encoding

/-- An image for which there is a format is encoded up to `CNT.ASM` without a fault (R240). -/
theorem exists_encoding {img : List Pixel} {var : BitVec 1} (himg : s.mem.img = .put img) (hw : s.regs.w = .put w)
    (hh : s.regs.h = .put h) (hvar : s.regs.var = .put var) (harea : 1 ≤ w.toNat ∧ 1 ≤ h.toNat)
    (hlen : img.length = w.toNat * h.toNat) (hcfg : s.cfg.wf = true)
    (hclass : classify s.cfg var (tooManyColors (packedImage s.cfg img)) (palette s.cfg (packedImage s.cfg img)) =
      .ok f) : ∃ u v n us run vals, Encoding s img w h f u v n us run vals := by
  obtain ⟨hcfg', hmem, hfault, hw', hh'⟩ := (counted s img).setFormat_frame f w.toNat
  obtain ⟨hfmt, hpw, hvn⟩ := (counted s img).setFormat_regs f w.toNat
  have hne : img ≠ [] := by
    rintro rfl
    exact absurd (Nat.mul_pos harea.1 harea.2) (by rw [← hlen]; decide)
  have hfront : encodeFront s = .ok ((counted s img).setFormat f w.toNat) :=
    encodeFront_eq_ok_iff.mpr ⟨img, var, w, f, himg, hvar, hw, harea.1, colors_of_img s.cfg hne, hclass, rfl⟩
  have hchosen : Chosen ((counted s img).setFormat f w.toNat) (packedImage s.cfg img) w h f :=
    { suits := by rw [hcfg']; exact suits_of_classify hcfg hclass
      area := harea
      length := by rw [packedImage_length, hlen]
      pk_eq := by rw [hmem]; rfl
      w_eq := hw'.trans hw
      h_eq := hh'.trans hh
      pw_eq := hpw
      fmt_eq := hfmt
      vn_eq := hvn
      pal_eq := fun _ => by rw [hmem, hcfg']; rfl }
  obtain ⟨v, n, us, run, vals, hmiddle, hprepared⟩ := hchosen.exists_prepared
  refine ⟨_, v, n, us, run, vals, hfront, hchosen, hmiddle, hprepared, ?_, hcfg', hfault, by rw [hmem]; rfl⟩
  rw [opEncodeImage_of_checks himg hw hh hvar harea hlen, hfront, ok_bind, hfmt, Slot.read_put, ok_bind,
    encodeBack_eq_bind, hmiddle, ok_bind]

/-! The regions of a container, cut out at its offsets. -/

theorem take_drop_middle {α : Type} (xs ys zs : List α) {a b : Nat} (ha : a = xs.length) (hb : b = a + ys.length) :
    ((xs ++ ys ++ zs).take b).drop a = ys := by
  subst ha hb
  rw [List.take_left' (List.length_append), List.drop_left' rfl]

section Container

variable {us : Nat} {rle vb pb : List Byte}

theorem container_length : (container w h n us f rle vb pb).length = 8 + rle.length + vb.length + pb.length := by
  simp [container, Nat.add_assoc]

theorem container_rle : ((container w h n us f rle vb pb).take (8 + rle.length)).drop 8 = rle := by
  rw [container, List.append_assoc _ vb]
  exact take_drop_middle _ rle _ rfl rfl

theorem container_values :
    ((container w h n us f rle vb pb).take (8 + rle.length + vb.length)).drop (8 + rle.length) = vb := by
  rw [container]
  exact take_drop_middle _ vb pb (by simp) rfl

theorem container_palette : (container w h n us f rle vb pb).drop (8 + rle.length + vb.length) = pb := by
  rw [container]
  exact List.drop_left' (by simp [Nat.add_assoc])

theorem container_dimensions : (container w h n us f rle vb pb).take 2 = [w, h] := by
  simp [container, headerBytes]

theorem container_format : (container w h n us f rle vb pb)[3]? = some (BitVec.ofNat 8 f) := rfl

end Container

end Sys2Proof.Machine
end

section
/-! SUPPORT. `CNT.PARSE` on a container that `CNT.ASM` has assembled (44_decoder_pipeline.md R261): every header field
comes back, and the regions are read in their windows. -/

namespace Sys2Proof.Machine

theorem toByte_toNat (b : Byte) : toByte b.toNat = b := by simp

section Header

variable {w h : BitVec 8} {n us f : Nat} {rle vb pb : List Byte}

theorem memRead1_width : memRead1 (container w h n us f rle vb pb) 0 = w.toNat :=
  congrArg BitVec.toNat (toByte_toNat w)

theorem memRead1_height : memRead1 (container w h n us f rle vb pb) 1 = h.toNat :=
  congrArg BitVec.toNat (toByte_toNat h)

theorem memRead1_chunkSpec (hn : isChunkWidth n) (hus : us ≤ 1) :
    memRead1 (container w h n us f rle vb pb) 2 = n + 128 * us := by
  change (toByte (n + 128 * us)).toNat = n + 128 * us
  exact Nat.mod_eq_of_lt (by omega)

theorem memRead1_format (hf : f ≤ 4) : memRead1 (container w h n us f rle vb pb) 3 = f :=
  toNat_fmt hf

theorem memRead2_rleEnd (h6 : 8 + rle.length + vb.length ≤ 65535) :
    memRead2 (container w h n us f rle vb pb) 4 = 8 + rle.length := by
  rw [container, List.append_assoc, List.append_assoc]
  exact memRead2_four _ _ _ _ _ _ _ (by omega)

theorem memRead2_valuesEnd (h6 : 8 + rle.length + vb.length ≤ 65535) :
    memRead2 (container w h n us f rle vb pb) 6 = 8 + rle.length + vb.length := by
  rw [container, List.append_assoc, List.append_assoc]
  exact memRead2_six _ _ _ _ _ _ _ h6

end Header

/-- What `CNT.PARSE` leaves in `p` of a container in `t` (R261). -/
structure Opened (t p : State) (w h : BitVec 8) (n us f : Nat) (rle vb pb : List Byte) : Prop where
  cfg : p.cfg = t.cfg
  buf_eq : p.mem.buf = .put (container w h n us f rle vb pb)
  w_eq : p.regs.w = .put w
  h_eq : p.regs.h = .put h
  n_eq : p.regs.n = .put (BitVec.ofNat 7 n)
  us_eq : p.regs.us = .put (BitVec.ofNat 1 us)
  fmt_eq : p.regs.fmt = .put (BitVec.ofNat 8 f)
  f4_eq : p.regs.f4 = .put (BitVec.ofNat 16 (8 + rle.length))
  f6_eq : p.regs.f6 = .put (BitVec.ofNat 16 (8 + rle.length + vb.length))
  pw_eq : p.regs.pw = .put (BitVec.ofNat 9 (paddedWidth f w.toNat))
  vn_eq : 1 ≤ f → p.regs.vn = .put (BitVec.ofNat 4 (valueWidth f))
  pal_eq : p.mem.pal = .put pb
  rb_eq : p.regs.rb = .put 8
  re_eq : p.regs.re = .put (BitVec.ofNat 17 (8 + rle.length))

/-- A container that meets the tests of `CNT.ASM` meets those of `CNT.PARSE` (R237, R262). -/
theorem exists_opened {t : State} {w h : BitVec 8} {n us f : Nat} {rle vb pb : List Byte}
    (hbuf : t.mem.buf = .put (container w h n us f rle vb pb)) (harea : 1 ≤ w.toNat ∧ 1 ≤ h.toNat)
    (hn : isChunkWidth n) (hus : us ≤ 1) (hf : f ≤ 4) (hvb : f = 0 → vb = []) (hpb : f ≤ 1 → pb = [])
    (hpal : paletteFits f pb.length) (hfits : containerFits t.cfg rle vb pb) :
    ∃ p, opCntParse t = .ok p ∧ Opened t p w h n us f rle vb pb := by
  obtain ⟨hmax, h6⟩ := hfits
  have hlen := container_length (w := w) (h := h) (n := n) (us := us) (f := f) (rle := rle) (vb := vb) (pb := pb)
  have h128 : (n + 128 * us) % 128 = n ∧ (n + 128 * us) / 128 = us := by omega
  refine ⟨parsed t (container w h n us f rle vb pb), opCntParse_eq_ok.mpr ⟨_, hbuf, ?_⟩, ?_⟩
  · rw [memRead1_width, memRead1_height, memRead1_chunkSpec hn hus, memRead1_format hf, memRead2_rleEnd h6,
      memRead2_valuesEnd h6, hlen, h128.1, Nat.add_sub_cancel_left]
    refine ⟨by omega, hmax, hf, hn, by omega, fun h0 => ?_, fun h1 => ?_, hpal, harea, rfl⟩
    · rw [hvb h0, hpb (by omega)]
      exact ⟨rfl, rfl⟩
    · rw [hpb (by omega)]
      rfl
  · simp only [parsed, memRead1_width, memRead1_height, memRead1_chunkSpec hn hus, memRead1_format hf,
      memRead2_rleEnd h6, memRead2_valuesEnd h6, h128.1, h128.2, BitVec.ofNat_toNat, BitVec.setWidth_eq,
      container_palette]
    by_cases h1 : 1 ≤ f
    · simp only [if_pos h1]
      constructor <;> simp [hbuf]
    · simp only [if_neg h1]
      constructor <;> simp [hbuf, h1]

/-! Regions of bytes in their windows. -/

theorem groupsOf_append (n : Nat) (xs ys : List Byte) : groupsOf n (xs ++ ys) = groupsOf n xs ++ groupsOf n ys :=
  List.flatMap_append

/-- The groups of a window are those of the bytes that stand in it (40_vwi_codec_and_chunker.md R135). -/
theorem groupsFrom_region {n : Nat} (hn : isChunkWidth n) (xs ys zs : List Byte) {S E : Nat} (hS : S = xs.length)
    (hE : E = S + ys.length) : groupsFrom (xs ++ ys ++ zs) E (8 * S) n = groupsOf n ys := by
  subst hS hE
  have hskip : 8 * xs.length / n = (groupsOf n xs).length := by
    refine Nat.div_eq_of_eq_mul_left hn.pos ?_
    rw [groupsOf_length, Nat.mul_assoc, hn.div_mul, Nat.mul_comm]
  rw [groupsFrom, List.take_left' List.length_append, groupsOf_append, List.drop_left' hskip.symm]

/-- A packed sequence is read from its window (R141, R144). -/
theorem unpackSeq_region {n : Nat} (hn : isChunkWidth n) {run : List Nat} (hrun : ∀ r ∈ run, 1 ≤ r)
    (xs zs : List Byte) {S E : Nat} (hS : S = xs.length) (hE : E = S + (packSeq run n).length) :
    unpackSeq (xs ++ packSeq run n ++ zs) S E n = some run := by
  obtain ⟨pad, -, hgroups⟩ := groupsOf_packGroups hn fun _ => lt_of_mem_chopAll (run := run)
  rw [unpackSeq_eq_scanGroups, groupsFrom_region hn xs _ zs hS hE, packSeq, hgroups, scanGroups_chopAll hn hrun]

/-- Packed values are read from their window (R145, R146). -/
theorem values_region {n : Nat} (hn : isChunkWidth n) {vals : List Byte}
    (hvals : ∀ g ∈ vals.map BitVec.toNat, g < 2 ^ n) (xs zs : List Byte) {S E : Nat} (hS : S = xs.length)
    (hE : E = S + (packGroups (vals.map BitVec.toNat) n).length) :
    ((groupsFrom (xs ++ packGroups (vals.map BitVec.toNat) n ++ zs) E (8 * S) n).take vals.length).map toByte =
      vals := by
  obtain ⟨pad, -, hgroups⟩ := groupsOf_packGroups hn hvals
  rw [groupsFrom_region hn xs _ zs hS hE, hgroups, List.take_left' (by simp), List.map_map]
  refine (List.map_congr_left fun x _ => ?_).trans (List.map_id vals)
  simp

end Sys2Proof.Machine
end

section
/-! SUPPORT. The pixels of a decoded stream (44_decoder_pipeline.md R265 to R267): the toggle taken back, the palette
looked up, the padding cut off. -/

namespace Sys2Proof.Machine

/-- The element of the decoder's stream for an element of the encoder's, in format 0 (42_run_length.md R216). -/
def monoBit (x : Byte) : Byte := if x = 255 then 1 else 0

theorem monoBit_eq (x : Byte) : monoBit x = 0 ∨ monoBit x = 1 := by
  unfold monoBit
  split
  · exact .inr rfl
  · exact .inl rfl

/-- Toggling 0 and 255 in the encoder and 0 and 1 in the decoder is the same (R182, R265). -/
theorem rescreen_unscreen (pw : Nat) {str : List Byte} (hstr : ∀ x ∈ str, x = 0 ∨ x = 255) :
    rescreen pw ((unscreen pw str).map monoBit) = str.map monoBit := by
  refine List.ext_getElem? fun i => ?_
  simp only [rescreen, List.getElem?_map, List.getElem?_zipIdx, Option.map_map, Nat.zero_add, unscreen_getElem?]
  cases hx : str[i]? with
  | none => rfl
  | some x =>
    rcases hstr x (List.mem_of_getElem? hx) with rfl | rfl <;> cases hodd : oddPlace pw i <;>
      simp [hodd, monoBit]

/-- The toggled stream is black and white, too. -/
theorem mem_unscreen {pw : Nat} {str : List Byte} (hstr : ∀ x ∈ str, x = 0 ∨ x = 255) {x : Byte}
    (hx : x ∈ unscreen pw str) : x = 0 ∨ x = 255 := by
  obtain ⟨⟨y, i⟩, hy, rfl⟩ := List.mem_map.mp hx
  have hmem : y ∈ str := List.fst_mem_of_mem_zipIdx hy
  rcases hstr y hmem with rfl | rfl <;> cases oddPlace pw i <;> simp

/-- Cutting the padding off padded rows leaves the rows (R267). -/
theorem crop_padRows {α : Type} {w pw : Nat} (hle : w ≤ pw) (g : Byte → Byte) (e : Byte → α) {h : Nat} {pk : List Byte}
    (hpk : pk.length = w * h) :
    mapRows pw (fun row => row.take w) h ((mapRows w (padRow w pw g) h pk).map e) = pk.map (e ∘ g) := by
  induction h generalizing pk with
  | zero =>
    rw [List.eq_nil_of_length_eq_zero (hpk.trans (Nat.mul_zero w))]
    rfl
  | succ h ih =>
    rw [Nat.mul_succ] at hpk
    have hrow : (pk.take w).length = w := by rw [List.length_take]; omega
    have hpadded : ((padRow w pw g (pk.take w)).map e).length = pw := by
      rw [List.length_map, padRow_length hle _ hrow]
    have hcut : ((padRow w pw g (pk.take w)).map e).take w = (pk.take w).map (e ∘ g) := by
      rw [padRow, List.map_append, List.map_map, List.take_left' (by rw [List.length_map, hrow])]
    rw [mapRows_succ, mapRows_succ, List.map_append, List.take_left' hpadded, List.drop_left' hpadded, hcut,
      ih (by rw [List.length_drop]; omega), ← List.map_append, List.take_append_drop]

/-- Packing a quantized pixel loses nothing (30_encoding.md R98, R99). -/
theorem unpackArgb8_packArgb8 (cfg : Config) (p : Pixel) :
    unpackArgb8 (packArgb8 (quantPixel cfg p)) = quantPixel cfg p := by
  have hvalue {q : Nat} (hq : q ≤ 3) : (levelValue q).toNat = 85 * q := Nat.mod_eq_of_lt (by omega)
  have hr := level_le cfg p.r
  have hg := level_le cfg p.g
  have hb := level_le cfg p.b
  have ha := level_le cfg p.a
  have hbyte : (packArgb8 (quantPixel cfg p)).toNat =
      64 * level cfg p.a + 16 * level cfg p.r + 4 * level cfg p.g + level cfg p.b := by
    have hquarter {q : Nat} (hq : q ≤ 3) : 85 * q / 64 = q := by omega
    simp only [packArgb8, quantPixel, quantChannel, hvalue hr, hvalue hg, hvalue hb, hvalue ha, hquarter hr,
      hquarter hg, hquarter hb, hquarter ha]
    exact Nat.mod_eq_of_lt (by omega)
  have hfields : (packArgb8 (quantPixel cfg p)).toNat / 16 % 4 = level cfg p.r ∧
      (packArgb8 (quantPixel cfg p)).toNat / 4 % 4 = level cfg p.g ∧
      (packArgb8 (quantPixel cfg p)).toNat % 4 = level cfg p.b ∧
      (packArgb8 (quantPixel cfg p)).toNat / 64 = level cfg p.a := by omega
  obtain ⟨h1, h2, h3, h4⟩ := hfields
  rw [unpackArgb8, h1, h2, h3, h4]
  rfl

/-- The packed image holds the whole cleaned and quantized image (43_container_encoder.md R241). -/
theorem map_unpackArgb8_packedImage (cfg : Config) (img : List Pixel) :
    (packedImage cfg img).map unpackArgb8 = normImage cfg img := by
  rw [packedImage, normImage, List.map_map, List.map_map]
  exact List.map_congr_left fun p _ => unpackArgb8_packArgb8 cfg (cleanPixel p)

/-- The decoder's stream for the encoder's. -/
def decodedStream (f : Nat) (str : List Byte) : List Byte := if f = 0 then str.map monoBit else str

/-- The pixel the decoder makes of an element of the encoder's stream (R266). -/
def decodedPixel (f : Nat) (pal : List Byte) (x : Byte) : Pixel := expandPixel f pal (if f = 0 then monoBit x else x)

theorem map_decodedStream (f : Nat) (pal str : List Byte) :
    (decodedStream f str).map (expandPixel f pal) = str.map (decodedPixel f pal) := by
  unfold decodedStream decodedPixel
  split
  · rw [List.map_map]
    rfl
  · rfl

/-- Every packed pixel comes back from its element of the stream (R241): `MONO_MAP` holds black and white only. -/
theorem decodedPixel_streamByte {cfg : Config} {pk : List Byte} {f : Nat} {c : Byte} (hcfg : cfg.wf = true)
    (hmono : ∀ c, (monoOf cfg c).isSome = true → c = 0xC0 ∨ c = 0xFF) (hs : Suits cfg pk f) (hc : c ∈ pk) :
    decodedPixel f (paletteRegion cfg pk f) (streamByte cfg pk f c) = unpackArgb8 c := by
  obtain ⟨hblack, hwhite⟩ := monoOf_of_wf hcfg
  rcases Nat.lt_or_ge f 2 with hlt | h2
  · obtain rfl | rfl : f = 0 ∨ f = 1 := by omega
    · rcases hmono c (hs.mono rfl c hc) with rfl | rfl
      · rw [streamByte, if_pos rfl, hblack]
        rfl
      · rw [streamByte, if_pos rfl, hwhite]
        rfl
    · rfl
  · obtain ⟨hall, -⟩ := hs.colors h2
    obtain ⟨-, hget⟩ := streamByte_index h2 (hall c hc)
    have hexpand (x : Byte) : expandPixel f (palette cfg pk) x = unpackArgb8 ((palette cfg pk).getD x.toNat 0) := by
      have hf := hs.le
      interval_cases f <;> rfl
    rw [decodedPixel, if_neg (by omega), paletteRegion_of_two_le h2, hexpand, hget]

end Sys2Proof.Machine
end

section
/-! SUPPORT. `DECODE` of the container that `ENCODE` leaves, step by step (43_container_encoder.md R241,
44_decoder_pipeline.md R268): the runs, the stream and the pixels come back. -/

namespace Sys2Proof.Machine

namespace Coded

variable {cfg : Config} {f pw : Nat} {str : List Byte} {us : BitVec 1} {run : List Nat} {vals : List Byte}

theorem run_pos (hc : Coded cfg f pw str us run vals) : ∀ r ∈ run, 1 ≤ r := by
  rcases Nat.eq_zero_or_pos f with h0 | h1
  · obtain ⟨rfl, -⟩ := hc.mono h0
    exact runsBinary_pos _
  · obtain ⟨-, rfl, -⟩ := hc.values h1
    exact runsMulti_pos str

/-- The stream that format 0 codes, toggled or not, is black and white and as long as it was. -/
theorem mono_stream (hstr : ∀ x ∈ str, x = 0 ∨ x = 255) :
    (∀ x ∈ (if us = 1 then unscreen pw str else str), x = 0 ∨ x = 255) ∧
      (if us = 1 then unscreen pw str else str).length = str.length := by
  split
  · exact ⟨fun x => mem_unscreen hstr, unscreen_length pw str⟩
  · exact ⟨hstr, rfl⟩

/-- The runs cover the stream, in format 0 with the phantom (42_run_length.md R211). -/
theorem run_sum (hc : Coded cfg f pw str us run vals) (hstr : f = 0 → ∀ x ∈ str, x = 0 ∨ x = 255) :
    run.sum = if f = 0 then str.length + 1 else str.length := by
  rcases Nat.eq_zero_or_pos f with rfl | h1
  · obtain ⟨rfl, -⟩ := hc.mono rfl
    obtain ⟨hbytes, hlen⟩ := mono_stream (us := us) (pw := pw) (hstr rfl)
    rw [if_pos rfl, runsBinary_sum hbytes, hlen]
  · obtain ⟨-, rfl, -⟩ := hc.values h1
    rw [if_neg (Nat.ne_zero_of_lt h1), runsMulti_sum]

/-- A legal `VBITS` is wide enough for the runs of an image (92_eei_decisions.md D10). -/
theorem run_fits (hc : Coded cfg f pw str us run vals) (hstr : f = 0 → ∀ x ∈ str, x = 0 ∨ x = 255)
    (hcfg : cfg.wf = true)
    (hlen : str.length ≤ 256 * 255) : ∀ r ∈ run, fitsVBits cfg r = true := by
  intro r hr
  have hle : r ≤ run.sum := List.single_le_sum (fun _ _ => Nat.zero_le _) r hr
  rw [hc.run_sum hstr] at hle
  refine fitsVBits_of_lt hcfg ?_
  split at hle <;> omega

end Coded

/-- What the last two steps of `DECODE` read besides the stream (44_decoder_pipeline.md R266, R267). -/
structure Shaped (p : State) (w h : BitVec 8) (f : Nat) (pb : List Byte) : Prop where
  w_eq : p.regs.w = .put w
  h_eq : p.regs.h = .put h
  fmt_eq : p.regs.fmt = .put (BitVec.ofNat 8 f)
  pw_eq : p.regs.pw = .put (BitVec.ofNat 9 (paddedWidth f w.toNat))
  pal_eq : p.mem.pal = .put pb

section Decode

variable {s u v t p q r : State} {img : List Pixel} {w h : BitVec 8} {f n : Nat} {us : BitVec 1} {run : List Nat}
  {vals : List Byte} {pk : List Byte}

/-- A register of 17 bits holds an offset (10_state.md R21). -/
theorem toNat_window {x : Nat} (hx : x ≤ 65535) : (BitVec.ofNat 17 x).toNat = x := Nat.mod_eq_of_lt (by omega)

/-- `CNT.PARSE` accepts what `CNT.ASM` has assembled. -/
theorem exists_opened_of_prepared (hc : Chosen u pk w h f) (hp : Prepared u v pk w h f n us run vals)
    (hfits : containerFits u.cfg (packSeq run n) (valueRegion f vals) (paletteRegion u.cfg pk f))
    (ht : t = v.setContainer w h n us.toNat f (packSeq run n) (valueRegion f vals) (paletteRegion u.cfg pk f)) :
    ∃ p, opCntParse t = .ok p ∧
      Opened t p w h n us.toNat f (packSeq run n) (valueRegion f vals) (paletteRegion u.cfg pk f) := by
  have hus := us.isLt
  subst ht
  refine exists_opened rfl hc.area hp.width (by omega) hc.suits.le (fun h0 => h0 ▸ valueRegion_zero vals) (fun h1 => ?_)
    hc.paletteFits ?_
  · rw [paletteRegion, if_neg (by omega)]
  · exact hp.cfg.symm ▸ hfits

/-- `SEQ.UNPACK` reads the runs (R264). -/
theorem exists_unpacked {vb pb : List Byte} {usNat : Nat}
    (ho : Opened t p w h n usNat f (packSeq run n) vb pb) (hn : isChunkWidth n) (hrun : ∀ r ∈ run, 1 ≤ r)
    (hvbits : ∀ r ∈ run, fitsVBits p.cfg r = true) (h6 : 8 + (packSeq run n).length + vb.length ≤ 65535) :
    ∃ q, opSeqUnpack p = .ok q ∧ q.mem.run = .put run ∧ Opened t q w h n usNat f (packSeq run n) vb pb := by
  have hre : (BitVec.ofNat 17 (8 + (packSeq run n).length)).toNat = 8 + (packSeq run n).length :=
    toNat_window (by omega)
  have hrb : (8 : BitVec 17).toNat = 8 := rfl
  refine ⟨_, opSeqUnpack_eq_ok.mpr ⟨_, _, _, _, run, ho.buf_eq, ho.rb_eq, ho.re_eq, ho.n_eq, ?_, ?_, ?_, hvbits, rfl⟩,
    rfl, ⟨ho.cfg, ho.buf_eq, ho.w_eq, ho.h_eq, ho.n_eq, ho.us_eq, ho.fmt_eq, ho.f4_eq, ho.f6_eq, ho.pw_eq, ho.vn_eq,
      ho.pal_eq, ho.rb_eq, ho.re_eq⟩⟩
  · rwa [toNat_chunkWidth hn]
  · rw [hre, container_length, hrb]
    omega
  · rw [hre, hrb, toNat_chunkWidth hn, container, List.append_assoc _ vb]
    exact unpackSeq_region hn hrun _ _ rfl rfl

/-- The stream of format 0 comes back with 255 read as 1, the toggle taken back (R264, R265). -/
theorem decodeMono_eq {pw : BitVec 9} {str : List Byte} (hc : Coded q.cfg 0 pw.toNat str us run vals)
    (hstr : ∀ x ∈ str, x = 0 ∨ x = 255) (hpolicy : q.cfg.unscreen ≠ .asObserved) (hrun : q.mem.run = .put run)
    (hpw : q.regs.pw = .put pw) (hh : q.regs.h = .put h) (hus : q.regs.us = .put us)
    (harea : 1 ≤ pw.toNat ∧ 1 ≤ h.toNat) (hlen : str.length = pw.toNat * h.toNat) :
    decodeMono q = .ok (q.setStr (str.map monoBit)) := by
  obtain ⟨hmono, hoff⟩ := hc.mono rfl
  obtain ⟨hbytes, hlen'⟩ := Coded.mono_stream (us := us) (pw := pw.toNat) hstr
  have hexpand : (expandBinary 0 run).drop 1 = (if us = 1 then unscreen pw.toNat str else str).map monoBit := by
    rw [hmono, expandBinary_runsBinary hbytes]
    rfl
  have hrlx : opRlxBin q = .ok (q.setStr ((if us = 1 then unscreen pw.toNat str else str).map monoBit)) := by
    refine opRlxBin_eq_ok.mpr ⟨run, pw, h, hrun, hpw, hh, harea, hc.run_pos, ?_, by rw [hexpand]⟩
    rw [hc.run_sum fun _ => hstr, if_pos rfl, hlen]
  refine decodeMono_eq_ok.mpr ⟨us, _, hus, hrlx, ?_⟩
  by_cases h1 : us = 1
  · have hsymmetric : q.cfg.unscreen = .symmetric := by
      have hne := hoff h1
      cases hpol : q.cfg.unscreen with
      | off => exact absurd hpol hne
      | symmetric => rfl
      | asObserved => exact absurd hpol hpolicy
    refine .inl ⟨⟨h1, hsymmetric⟩, opPixRescr_eq_ok.mpr ⟨_, pw, h, rfl, hpw, hh, harea, ?_, ?_, ?_⟩⟩
    · rw [List.length_map, hlen', hlen]
    · intro x hx
      obtain ⟨y, -, rfl⟩ := List.mem_map.mp hx
      exact monoBit_eq y
    · rw [if_pos h1, rescreen_unscreen pw.toNat hstr]
      rfl
  · refine .inr ⟨fun hp => h1 hp.1, ?_⟩
    rw [if_neg h1]

/-- An offset in the window registers (R268). -/
theorem toNat_setWidth_offset {x : Nat} (hx : x ≤ 65535) : ((BitVec.ofNat 16 x).setWidth 17).toNat = x := by
  rw [BitVec.toNat_setWidth, toNat_offset hx]
  exact Nat.mod_eq_of_lt (by omega)

/-- `FIX.UNPACK` reads the values, once the window has moved to them (R268). -/
theorem opFixUnpack_values {pb : List Byte} {usNat : Nat} (h1 : 1 ≤ f) (hf : f ≤ 4)
    (ho : Opened t q w h n usNat f (packSeq run n) (valueRegion f vals) pb) (hrun : q.mem.run = .put run)
    (hvals : ∀ g ∈ vals.map BitVec.toNat, g < 2 ^ valueWidth f) (hcount : vals.length = run.length)
    (h6 : 8 + (packSeq run n).length + (valueRegion f vals).length ≤ 65535) :
    opFixUnpack ((q.setRb ((BitVec.ofNat 16 (8 + (packSeq run n).length)).setWidth 17)).setRe
      ((BitVec.ofNat 16 (8 + (packSeq run n).length + (valueRegion f vals).length)).setWidth 17)) =
      .ok (((q.setRb ((BitVec.ofNat 16 (8 + (packSeq run n).length)).setWidth 17)).setRe
        ((BitVec.ofNat 16 (8 + (packSeq run n).length + (valueRegion f vals).length)).setWidth 17)).setVals vals) := by
  have hwidth := isChunkWidth_valueWidth h1 hf
  have hvn : (BitVec.ofNat 4 (valueWidth f)).toNat = valueWidth f := by interval_cases f <;> rfl
  have h4 := toNat_setWidth_offset (x := 8 + (packSeq run n).length) (by omega)
  have h6' := toNat_setWidth_offset h6
  refine opFixUnpack_eq_ok.mpr ⟨_, _, _, _, run, ho.buf_eq, rfl, rfl, ho.vn_eq h1, hrun, ?_⟩
  rw [hvn, h4, h6', container_length, ← hcount, Nat.add_sub_cancel_left, valueRegion_of_one_le h1]
  refine ⟨hwidth, by omega, ?_, ?_⟩
  · rw [packGroups_length hwidth hvals, List.length_map]
  · rw [container, values_region hwidth hvals _ pb (by simp) rfl]

/-- The stream of the other formats comes back as it was (R264). -/
theorem exists_decodedValues {pw : BitVec 9} {str pb : List Byte} {usNat : Nat} (h1 : 1 ≤ f) (hf : f ≤ 4)
    (ho : Opened t q w h n usNat f (packSeq run n) (valueRegion f vals) pb)
    (hc : Coded q.cfg f pw.toNat str us run vals) (hvals : ∀ g ∈ vals.map BitVec.toNat, g < 2 ^ valueWidth f)
    (hrun : q.mem.run = .put run) (hpw : q.regs.pw = .put pw) (harea : 1 ≤ pw.toNat ∧ 1 ≤ h.toNat)
    (hlen : str.length = pw.toNat * h.toNat)
    (h6 : 8 + (packSeq run n).length + (valueRegion f vals).length ≤ 65535) :
    ∃ r, decodeValues q = .ok r ∧ r.mem.str = .put str ∧ Shaped r w h f pb := by
  obtain ⟨-, hruns, hvalues⟩ := hc.values h1
  have hcount : vals.length = run.length := by rw [hruns, hvalues, runsMulti_length]
  have hsum : run.sum = pw.toNat * h.toNat := by rw [hruns, runsMulti_sum, hlen]
  refine ⟨_, decodeValues_eq_ok.mpr ⟨_, _, _, ho.f4_eq, ho.f6_eq,
    opFixUnpack_values h1 hf ho hrun hvals hcount h6, opRlxMv_eq_ok.mpr ⟨run, vals, pw, h, hrun, rfl, hpw, ho.h_eq,
      harea, hc.run_pos, hcount, hsum, rfl⟩⟩, ?_, ⟨ho.w_eq, ho.h_eq, ho.fmt_eq, ho.pw_eq, ho.pal_eq⟩⟩
  change Slot.put (expandMulti vals run) = .put str
  rw [expandMulti_eq_runStream, hruns, hvalues, runStream_runsMulti]

/-- The steps between the runs and the expander give the stream back (R264, R268). -/
theorem exists_decodedStream (hc : Chosen u pk w h f) (hp : Prepared u v pk w h f n us run vals)
    (ho : Opened t q w h n us.toNat f (packSeq run n) (valueRegion f vals) (paletteRegion u.cfg pk f))
    (hcfg : q.cfg = u.cfg) (hpolicy : u.cfg.unscreen ≠ .asObserved) (hrun : q.mem.run = .put run)
    (h6 : 8 + (packSeq run n).length + (valueRegion f vals).length ≤ 65535) :
    ∃ r, decodeStream (BitVec.ofNat 8 f) q = .ok r ∧
      r.mem.str = .put (decodedStream f (stream u.cfg pk f w.toNat h.toNat)) ∧
      Shaped r w h f (paletteRegion u.cfg pk f) := by
  have hf := hc.suits.le
  have hpw := toNat_pw hf w
  have hcoded : Coded q.cfg f (BitVec.ofNat 9 (paddedWidth f w.toNat)).toNat (stream u.cfg pk f w.toNat h.toNat) us run
      vals := by
    rw [hcfg, hpw]
    exact hp.coded
  have harea : 1 ≤ (BitVec.ofNat 9 (paddedWidth f w.toNat)).toNat ∧ 1 ≤ h.toNat := hc.grid_area
  have hlen := hpw.symm ▸ hc.stream_length
  unfold decodeStream
  rcases Nat.eq_zero_or_pos f with rfl | h1
  · have hus : q.regs.us = .put us := by rw [ho.us_eq, BitVec.ofNat_toNat, BitVec.setWidth_eq]
    refine ⟨_, (if_pos rfl).trans (decodeMono_eq hcoded (fun x => mem_stream_mono) (hcfg ▸ hpolicy) hrun ho.pw_eq
      ho.h_eq hus harea hlen), rfl, ⟨ho.w_eq, ho.h_eq, ho.fmt_eq, ho.pw_eq, ho.pal_eq⟩⟩
  · have h0 : ¬f = 0 := Nat.ne_zero_of_lt h1
    rw [if_neg ((fmt_eq_zero_iff hf).not.mpr h0), decodedStream, if_neg h0]
    exact exists_decodedValues h1 hf ho hcoded (lt_of_mem_vals hc hp h1) hrun ho.pw_eq harea hlen h6

/-- The elements of the decoded stream of formats 2 to 4 are places of the palette (R266). -/
theorem mem_stream_lt_palette (hc : Chosen u pk w h f) (h2 : 2 ≤ f) {x : Byte}
    (hx : x ∈ stream u.cfg pk f w.toNat h.toNat) : x.toNat < (paletteRegion u.cfg pk f).length := by
  obtain ⟨hpos, -⟩ := hc.paletteFits h2
  rcases mem_padRows hx with rfl | ⟨c, hmem, rfl⟩
  · exact hpos
  · rw [paletteRegion_of_two_le h2]
    exact (streamByte_index h2 ((hc.suits.colors h2).1 c hmem)).1

/-- The last two steps give the pixels back (R266, R267). -/
theorem exists_shown (hc : Chosen u pk w h f) (hcfg : u.cfg.wf = true)
    (hmono : ∀ c, (monoOf u.cfg c).isSome = true → c = 0xC0 ∨ c = 0xFF)
    (hstr : r.mem.str = .put (decodedStream f (stream u.cfg pk f w.toNat h.toNat)))
    (hs : Shaped r w h f (paletteRegion u.cfg pk f)) :
    ∃ a b, opPalExpand r = .ok a ∧ opPixCrop a = .ok b ∧ b.mem.img = .put (pk.map unpackArgb8) ∧
      b.regs.w = .put w ∧ b.regs.h = .put h := by
  have hf := hc.suits.le
  have hpw := toNat_pw hf w
  have hlen : (decodedStream f (stream u.cfg pk f w.toNat h.toNat)).length = paddedWidth f w.toNat * h.toNat := by
    rw [← hc.stream_length, decodedStream]
    split
    · exact List.length_map _
    · rfl
  have hpixels : mapRows (paddedWidth f w.toNat) (fun row => row.take w.toNat) h.toNat
      ((decodedStream f (stream u.cfg pk f w.toNat h.toNat)).map (expandPixel f (paletteRegion u.cfg pk f))) =
      pk.map unpackArgb8 := by
    rw [map_decodedStream, stream, crop_padRows hc.pw_bounds.1 _ _ hc.length]
    exact List.map_congr_left fun c => decodedPixel_streamByte hcfg hmono hc.suits
  have hexpand : opPalExpand r = .ok (r.setPimg ((decodedStream f (stream u.cfg pk f w.toNat h.toNat)).map
      (expandPixel f (paletteRegion u.cfg pk f)))) := by
    refine opPalExpand_eq_ok.mpr ⟨_, _, _, h, paletteRegion u.cfg pk f, hstr, hs.fmt_eq, hs.pw_eq, hs.h_eq, ?_⟩
    rw [toNat_fmt hf, hpw, fmt_eq_zero_iff hf]
    refine ⟨?_, ⟨hc.area.1.trans hc.pw_bounds.1, hc.area.2⟩, ⟨hf, hlen⟩, fun h0 x hx => ?_, hc.paletteFits,
      fun h2 x hx => ?_, rfl⟩
    · by_cases h2 : 2 ≤ f
      · exact .inl ⟨h2, hs.pal_eq⟩
      · exact .inr ⟨h2, if_neg h2⟩
    · rw [decodedStream, if_pos h0] at hx
      obtain ⟨y, -, rfl⟩ := List.mem_map.mp hx
      exact monoBit_eq y
    · rw [decodedStream, if_neg (by omega)] at hx
      exact mem_stream_lt_palette hc h2 hx
  refine ⟨_, _, hexpand, opPixCrop_eq_ok.mpr ⟨_, w, h, _, rfl, hs.w_eq, hs.h_eq, hs.pw_eq, hc.pw_area, ?_, rfl⟩, ?_,
    hs.w_eq, hs.h_eq⟩
  · rw [hpw, List.length_map, hlen]
    exact ⟨hc.pw_bounds.1, rfl⟩
  · rw [← hpixels, hpw]
    rfl

/-- The image round trip, for the steps of `DECODE` on what `ENCODE` leaves (R241). -/
theorem Encoding.exists_decoded (he : Encoding s img w h f u v n us run vals) (hcfg : s.cfg.wf = true)
    (hpolicy : s.cfg.unscreen ≠ .asObserved)
    (hmono : ∀ c, (monoOf s.cfg c).isSome = true → c = 0xC0 ∨ c = 0xFF) (ht : opEncodeImage s = .ok t) :
    ∃ b, opDecodeImage t = .ok b ∧ b.mem.img = .put (normImage s.cfg img) ∧ b.regs.w = .put w ∧ b.regs.h = .put h := by
  have hc := he.chosen
  have hp := he.prepared
  have hfits : containerFits u.cfg (packSeq run n) (valueRegion f vals)
      (paletteRegion u.cfg (packedImage s.cfg img) f) := by
    by_contra hbig
    rw [he.encode_error hbig] at ht
    cases ht
  rw [he.encode_ok hfits, Except.ok.injEq] at ht
  rw [← he.cfg] at hcfg hpolicy hmono
  have h6 := hfits.2
  obtain ⟨p, hparse, hopened⟩ := exists_opened_of_prepared hc hp hfits ht.symm
  have hpcfg : p.cfg = u.cfg := by
    rw [hopened.cfg, ← ht]
    exact hp.cfg
  have hstr : f = 0 → ∀ x ∈ stream u.cfg (packedImage s.cfg img) f w.toNat h.toNat, x = 0 ∨ x = 255 := by
    rintro rfl x hx
    exact mem_stream_mono hx
  obtain ⟨q, hunpack, hrun, hopened'⟩ := exists_unpacked hopened hp.width hp.coded.run_pos
    (hpcfg ▸ hp.coded.run_fits hstr hcfg (hc.stream_length ▸ hc.padded_le)) h6
  have hqcfg : q.cfg = u.cfg := (hopened'.cfg.trans hopened.cfg.symm).trans hpcfg
  obtain ⟨r, hdecode, hstream, hshaped⟩ := exists_decodedStream hc hp hopened' hqcfg hpolicy hrun h6
  obtain ⟨a, b, hexpand, hcrop, himg, hw, hh⟩ := exists_shown hc hcfg hmono hstream hshaped
  refine ⟨b, opDecodeImage_eq_ok.mpr ⟨p, _, _, q, r, a, hparse, hopened.fmt_eq, hopened.us_eq, ?_, hunpack, hdecode,
    hexpand, hcrop⟩, ?_, hw, hh⟩
  · rintro ⟨h0, h1, hoff⟩
    rw [fmt_eq_zero_iff hc.suits.le] at h0
    rw [BitVec.ofNat_toNat, BitVec.setWidth_eq] at h1
    rw [hpcfg] at hoff
    exact (hp.coded.mono h0).2 h1 hoff
  · rw [himg, map_unpackArgb8_packedImage]

end Decode

end Sys2Proof.Machine
end

section
/-! PROOFS. The statements about the container encoder (43_container_encoder.md). -/

namespace Sys2Proof.Proofs.EncoderFamily

open Sys2Proof Sys2Proof.Machine

/-- Settles O47: the tests of the body in its order, then the bytes of the header and the regions. -/
theorem cntAsmResult : Obligations.CntAsmResult := by
  refine ⟨fun s hs hinvalid => exec_of_operand_invalid hs fun hvalid => hinvalid ?_,
    fun s w h n us fmt rleb vb pb hs hw hh hn hus hfmt hrleb hvb hpb => ?_⟩
  · simp only [readSet, List.forall_mem_append, List.forall_mem_cons] at hvalid
    obtain ⟨⟨⟨hw, hh, hn, hus, hfmt, hrleb, -⟩, hvalb⟩, hpal⟩ := hvalid
    exact ⟨hw, hh, hn, hus, hfmt, hrleb, fun h1 => hvalb (.buf .valb) (by simp [h1]),
      fun h2 => hpal (.buf .pal) (by simp [h2])⟩
  · have hvalb := Slot.readIf_of_ite hvb
    have hpal := Slot.readIf_of_ite hpb
    have hgood (hf : fmt.toNat ≤ 4) := paletteFits_iff hf pb.length
    refine ⟨fun hzero => ?_, fun hw0 hh0 hwidth => ?_, fun hw0 hh0 hwidth hbad => ?_,
      fun hw0 hh0 hwidth ⟨h4, hscr, hfits⟩ hbig => ?_, fun hw0 hh0 hwidth ⟨h4, hscr, hfits⟩ hmax h6 => ?_⟩
    · refine exec_of_body_error .zeroArea hs ?_
      have hnot : ¬(1 ≤ w.toNat ∧ 1 ≤ h.toNat) := fun harea => one_le_toNat_two_iff.mp harea hzero
      simp only [opBody, opCntAsm, hw, hh, hn, hus, hfmt, hrleb, hvalb, hpal, Slot.read_put, ok_bind, error_bind,
        require_neg hnot]
    all_goals have harea : 1 ≤ w.toNat ∧ 1 ≤ h.toNat := one_le_toNat_two_iff.mpr (not_or.mpr ⟨hw0, hh0⟩)
    · refine exec_of_body_error .badChunkWidth hs ?_
      simp only [opBody, opCntAsm, hw, hh, hn, hus, hfmt, hrleb, hvalb, hpal, Slot.read_put, ok_bind, error_bind,
        require_pos harea, require_neg hwidth]
    · refine exec_of_body_error .operandShape hs ?_
      have hnot : ¬(fmt.toNat ≤ 4 ∧ (us = 0 ∨ fmt = 0) ∧ paletteFits fmt.toNat pb.length) :=
        fun ⟨h4, hscr, hfits⟩ => hbad ⟨h4, hscr, (hgood h4).mp hfits⟩
      simp only [opBody, opCntAsm, hw, hh, hn, hus, hfmt, hrleb, hvalb, hpal, Slot.read_put, ok_bind, error_bind,
        require_pos harea, require_pos hwidth, require_bind_require, require_neg hnot]
    · refine exec_of_body_error .containerTooLarge hs ?_
      have hnot : ¬(8 + rleb.length + vb.length + pb.length ≤ s.cfg.containerMax ∧
          8 + rleb.length + vb.length ≤ 65535) := fun ⟨hmax, _⟩ => absurd hmax (not_le.mpr hbig)
      simp only [opBody, opCntAsm, hw, hh, hn, hus, hfmt, hrleb, hvalb, hpal, Slot.read_put, ok_bind, error_bind,
        require_pos harea, require_pos hwidth, require_pos h4, require_pos hscr, require_pos ((hgood h4).mpr hfits),
        require_neg hnot]
    · rw [exec_of_body_ok (i := .cntAsm) hs (opCntAsm_eq_ok.mpr ⟨w, h, n, us, fmt, rleb, vb, pb, hw, hh, hn, hus, hfmt,
        hrleb, Slot.readIf_eq_ok.mp hvalb, Slot.readIf_eq_ok.mp hpal, harea, hwidth, h4, hscr, (hgood h4).mpr hfits,
        ⟨hmax, h6⟩, rfl⟩)]
      simp only [headerBytes, chunkSpec, u16Bytes, toByte, BitVec.ofNat_toNat, BitVec.setWidth_eq]
      rfl

/-- Settles O46: the tests of the body in its order, then the two answers of the search. -/
theorem cntSearchResult : Obligations.CntSearchResult := by
  refine ⟨fun s hs hinvalid => exec_of_operand_invalid hs fun hvalid => hinvalid ?_,
    fun s fmt run str pw h hs hfmt hrun hscreen => ?_⟩
  · simp only [readSet, List.forall_mem_append, List.forall_mem_cons] at hvalid
    obtain ⟨⟨hfmt, hrun, -⟩, hrest⟩ := hvalid
    refine ⟨hfmt, hrun, fun hsc => ?_⟩
    rw [if_pos hsc] at hrest
    exact ⟨hrest (.buf .str) (by simp), hrest (.reg .pw) (by simp), hrest (.reg .h) (by simp)⟩
  · obtain ⟨hstr0, hgrid⟩ := imp_and.mp hscreen
    obtain ⟨hpw0, hh0⟩ := imp_and.mp hgrid
    obtain ⟨str', hstr, hstr'⟩ := Slot.exists_readIf_eq_ok [] hstr0
    obtain ⟨pw', hpw, hpw'⟩ := Slot.exists_readIf_eq_ok 0 hpw0
    obtain ⟨h', hh, hh'⟩ := Slot.exists_readIf_eq_ok 0 hh0
    refine ⟨fun h5 => ?_, fun h4 hzero => ?_, fun h4 hzero hsc harea => ?_, fun h4 hzero hsc hpw0 hh0 hshape => ?_,
      fun h4 hzero hsc => ?_⟩
    · refine exec_of_body_error .operandShape hs ?_
      simp only [opBody, opCntSearch, hfmt, hrun, hstr, hpw, hh, Slot.read_put, ok_bind, error_bind,
        require_neg (not_le.mpr h5)]
    · refine exec_of_body_error .zeroValue hs ?_
      have hnot : ¬∀ r ∈ run, 1 ≤ r := fun hpos => forall_one_le_iff.mp hpos hzero
      simp only [opBody, opCntSearch, hfmt, hrun, hstr, hpw, hh, Slot.read_put, ok_bind, error_bind, require_pos h4,
        require_neg hnot]
    all_goals have hpos : ∀ r ∈ run, 1 ≤ r := forall_one_le_iff.mpr hzero
    · refine exec_of_body_error .zeroArea hs ?_
      have hnot : ¬(screened s.cfg fmt.toNat → 1 ≤ pw'.toNat ∧ 1 ≤ h'.toNat) := fun hone =>
        one_le_toNat_two_iff.mp (hone hsc) (hpw' hsc ▸ hh' hsc ▸ harea)
      simp only [opBody, opCntSearch, hfmt, hrun, hstr, hpw, hh, Slot.read_put, ok_bind, error_bind, require_pos h4,
        require_pos hpos, require_neg hnot]
    · refine exec_of_body_error .operandShape hs ?_
      have harea : screened s.cfg fmt.toNat → 1 ≤ pw'.toNat ∧ 1 ≤ h'.toNat := fun _ =>
        one_le_toNat_two_iff.mpr (hpw' hsc ▸ hh' hsc ▸ not_or.mpr ⟨hpw0, hh0⟩)
      have hnot : ¬(screened s.cfg fmt.toNat → str'.length = pw'.toNat * h'.toNat ∧ ∀ x ∈ str', x = 0 ∨ x = 255) :=
        fun hone => hshape (hstr' hsc ▸ hpw' hsc ▸ hh' hsc ▸ hone hsc)
      simp only [opBody, opCntSearch, hfmt, hrun, hstr, hpw, hh, Slot.read_put, ok_bind, error_bind, require_pos h4,
        require_pos hpos, require_pos harea, require_neg hnot]
    · have harea (hp : screened s.cfg fmt.toNat) : 1 ≤ pw.toNat ∧ 1 ≤ h.toNat :=
        have ⟨hpw0, hh0, _⟩ := hsc hp
        one_le_toNat_two_iff.mpr (not_or.mpr ⟨hpw0, hh0⟩)
      have hshape (hp : screened s.cfg fmt.toNat) :=
        have ⟨_, _, hshape⟩ := hsc hp
        hshape
      obtain ⟨n, hn, hok⟩ := opCntSearch_completes ⟨hfmt, hrun, hscreen, h4, hpos, harea, hshape⟩
      have hexec := exec_of_body_ok (i := .cntSearch) hs hok
      refine ⟨n, hn.mem, fun m hm => ⟨hn.le m hm, hn.lt m hm⟩, fun hlose => ?_, fun hp hwin => ?_⟩
      · rw [hexec, winner_of_plain hlose]
        rfl
      · rw [hexec, winner_of_fifth ⟨hp, hwin⟩]
        rfl

/-- Settles O48: `CNT.ASM` writes the offsets, and `ENCODE` ends with it. -/
theorem headerOffsetsAreConsistent : Obligations.HeaderOffsetsAreConsistent := by
  rintro i s t (rfl | rfl) hs hexec ht
  · exact opCntAsm_offsets ((exec_eq_next_iff_body_ok (i := .cntAsm) hs).mp ⟨hexec, ht⟩)
  · obtain ⟨v, hasm⟩ := opEncodeImage_ends_with_cntAsm
      ((exec_eq_next_iff_body_ok (i := .encodeImage) hs).mp ⟨hexec, ht⟩)
    exact opCntAsm_offsets hasm

/-- Settles O50: `ENCODE` runs the bodies of its steps, which answer or fault as the commands do. -/
theorem encodeImageEqualsItsSteps : Obligations.EncodeImageEqualsItsSteps := by
  refine ⟨fun s t hs hexec ht => ?_, fun s u t hs hfront hback => ?_⟩
  · have hbody : opEncodeImage s = .ok t := (exec_eq_next_iff_body_ok (i := .encodeImage) hs).mp ⟨hexec, ht⟩
    obtain ⟨-, -, -, -, u, fmt, -, -, -, -, -, -, hfront, hfmt, hback⟩ := opEncodeImage_eq_ok.mp hbody
    obtain rfl : u.regs.fmt.val = fmt := congrArg Slot.val hfmt
    rw [encodeFront_eq_runBodies] at hfront
    rw [encodeBack_eq_runBodies] at hback
    obtain ⟨hu, hu0⟩ := runCommands_of_bodies_ok (by decide) hs hfront
    obtain ⟨ht', -⟩ := runCommands_of_bodies_ok (sysReset_notMem_encodeBackSteps _) hu0 hback
    rw [encodeBackSteps_eq] at ht'
    exact ⟨u, hu, fun h0 => by rwa [if_pos h0] at ht', fun h0 => by rwa [if_neg h0] at ht'⟩
  · rw [← encodeBackSteps_eq] at hback
    have hnoReset := sysReset_notMem_encodeBackSteps u.regs.fmt.val
    refine ⟨fun ht => ?_, fun ht himg hw hh hvar hw0 hh0 hlen => ?_⟩
    · have hu : u.fault = 0 := by
        by_contra hu
        rw [runCommands_of_faulted hnoReset hu] at hback
        cases hback
        exact hu ht
      refine exec_of_body_ok (i := .encodeImage) hs (opEncodeImage_of_steps (u := u) ?_ ?_)
      · rw [encodeFront_eq_runBodies]
        exact (runCommands_eq_next_iff_bodies_ok (by decide) hs).mp ⟨hfront, hu⟩
      · rw [encodeBack_eq_runBodies]
        exact (runCommands_eq_next_iff_bodies_ok hnoReset hu).mp ⟨hback, ht⟩
    · have hsteps := opEncodeImage_of_checks (Slot.eq_put_of_valid himg) (Slot.eq_put_of_valid hw)
        (Slot.eq_put_of_valid hh) (Slot.eq_put_of_valid hvar) ⟨one_le_toNat_iff.mpr hw0, one_le_toNat_iff.mpr hh0⟩ hlen
      cases hbody : encodeFront s with
      | error x =>
        have hu : u.fault = x.code :=
          runCommands_of_bodies_error (by decide) hs ((encodeFront_eq_runBodies s).symm.trans hbody) hfront
        rw [runCommands_of_faulted hnoReset (hu ▸ x.code_ne_zero)] at hback
        cases hback
        rw [hu]
        exact exec_of_body_error x hs (by rw [opBody, hsteps, hbody, error_bind])
      | ok u' =>
        obtain ⟨hu', hfault⟩ := runCommands_of_bodies_ok (by decide) hs ((encodeFront_eq_runBodies s).symm.trans hbody)
        obtain rfl : u' = u := Host.Outcome.next.inj (hu'.symm.trans hfront)
        obtain ⟨img, -, w, f, -, -, -, -, -, -, hfmt⟩ := encodeFront_eq_ok_iff.mp hbody
        have hread : u'.regs.fmt.read = .ok u'.regs.fmt.val := by
          rw [hfmt, ((counted s img).setFormat_regs f w.toNat).1, Slot.read_put]
        cases hrest : runBodies (encodeBackSteps u'.regs.fmt.val) u' with
        | ok t' =>
          obtain ⟨ht', hfault'⟩ := runCommands_of_bodies_ok hnoReset hfault hrest
          obtain rfl : t' = t := Host.Outcome.next.inj (ht'.symm.trans hback)
          exact absurd hfault' ht
        | error x =>
          rw [runCommands_of_bodies_error hnoReset hfault hrest hback]
          exact exec_of_body_error x hs (by
            rw [opBody, hsteps, hbody, ok_bind, hread, ok_bind, encodeBack_eq_runBodies, hrest])

/-- Settles O49: `ENCODE`'s own checks, the variant's, and then the one test of `CNT.ASM` that is left. -/
theorem encodeImageCompletes : Obligations.EncodeImageCompletes := by
  refine ⟨fun s hs hinvalid => exec_of_operand_invalid hs (by simpa [readSet, State.place, Slot.map] using hinvalid),
    fun s img w h var hs himg hw hh hvar => ⟨fun hzero => ?_, fun hw0 hh0 hlen => ?_, fun hw0 hh0 hlen hmono hnot => ?_,
      fun hw0 hh0 hlen haccept hcfg => ?_⟩⟩
  · refine exec_of_body_error .zeroArea hs ?_
    have hnot : ¬(1 ≤ w.toNat ∧ 1 ≤ h.toNat) := fun harea => one_le_toNat_two_iff.mp harea hzero
    simp only [opBody, opEncodeImage, himg, hw, hh, hvar, Slot.read_put, ok_bind, error_bind, require_neg hnot]
  all_goals have harea : 1 ≤ w.toNat ∧ 1 ≤ h.toNat := one_le_toNat_two_iff.mpr (not_or.mpr ⟨hw0, hh0⟩)
  · refine exec_of_body_error .operandShape hs ?_
    simp only [opBody, opEncodeImage, himg, hw, hh, hvar, Slot.read_put, ok_bind, error_bind, require_pos harea,
      require_neg hlen]
  · refine exec_of_body_error .notMonochrome hs ?_
    have hne : img ≠ [] := by
      rintro rfl
      exact absurd (Nat.mul_pos harea.1 harea.2) (by rw [← hlen]; decide)
    rw [opBody, opEncodeImage_of_checks himg hw hh hvar harea hlen,
      encodeFront_notMonochrome himg hne (hvar.trans (congrArg Slot.put hmono)) hw hw0 hnot, error_bind]
  · obtain ⟨f, hclass⟩ := exists_classify_eq_ok haccept
    obtain ⟨u, v, n, us, run, vals, he⟩ := exists_encoding himg hw hh hvar harea hlen hcfg hclass
    have hf := he.chosen.suits.le
    have hfmt := he.prepared.fmt_eq
    have hcap : u.cfg.containerMax = s.cfg.containerMax := congrArg Config.containerMax he.cfg
    have hrleb := he.prepared.rleb_eq
    refine ⟨⟨u, v, ?_, ?_, he.prepared.fault.trans (he.fault.trans hs), ?_⟩, fun hsmall hmax => ?_⟩
    · exact (runCommands_of_bodies_ok (by decide) hs ((encodeFront_eq_runBodies s).symm.trans he.front)).1
    · rw [he.chosen.fmt_eq]
      exact (runCommands_of_bodies_ok (sysReset_notMem_encodeMiddleSteps _) (he.fault.trans hs) he.middle).1
    · simp only [he.prepared.valb_length hf, he.prepared.pal_length hf, hrleb]
      refine ⟨fun hbig => exec_of_body_error .containerTooLarge hs (he.encode_error ?_), fun hmax h6 => ?_⟩
      · rw [containerFits, hcap, not_and_or, not_le, not_le]
        exact hbig
      · rw [← hcap] at hmax
        refine ⟨_, _, exec_of_body_ok hs (he.encode_ok ⟨hmax, h6⟩), he.prepared.fault.trans (he.fault.trans hs),
          he.prepared.img.trans he.img, rfl, container_length, container_dimensions, ?_, container_rle, fun h0 => ?_,
          fun h2 => ?_⟩
        · rw [hfmt]
          exact container_format
        · rw [hfmt, ne_eq, fmt_eq_zero_iff hf, ← ne_eq, ← Nat.one_le_iff_ne_zero] at h0
          rw [he.prepared.valb_eq h0, ← valueRegion_of_one_le h0]
          exact container_values
        · rw [hfmt, toNat_fmt hf] at h2
          rw [he.prepared.pal_eq h2, ← paletteRegion_of_two_le h2]
          exact container_palette
    · have hle := container_length_le he.chosen he.prepared hsmall
      rw [← hcap] at hmax
      exact ⟨_, exec_of_body_ok hs (he.encode_ok ⟨hle.trans hmax, (Nat.le_add_right _ _).trans hle⟩),
        he.prepared.fault.trans (he.fault.trans hs)⟩

/-- Settles O51: `ENCODE` is taken apart at `CNT.ASM`, and `DECODE` reads back what stands there. -/
theorem decodingAnEncodedImageGivesItBack : Obligations.DecodingAnEncodedImageGivesItBack := by
  intro s t img hs hcfg hpolicy hmono himg hexec ht
  have hbody : opEncodeImage s = .ok t := (exec_eq_next_iff_body_ok (i := .encodeImage) hs).mp ⟨hexec, ht⟩
  obtain ⟨img', w, h, var, u, -, himg', hw, hh, hvar, harea, hlen, hfront, -⟩ := opEncodeImage_eq_ok.mp hbody
  obtain rfl : img = img' := congrArg Slot.val (himg.symm.trans himg')
  obtain ⟨img', var', w', f, himg', hvar', -, -, -, hclass, -⟩ := encodeFront_eq_ok_iff.mp hfront
  obtain rfl : img = img' := congrArg Slot.val (himg.symm.trans himg')
  obtain rfl : var = var' := congrArg Slot.val (hvar.symm.trans hvar')
  obtain ⟨u, v, n, us, run, vals, he⟩ := exists_encoding himg hw hh hvar harea hlen hcfg hclass
  obtain ⟨b, hdecode, himgb, hwb, hhb⟩ := he.exists_decoded hcfg hpolicy hmono hbody
  obtain ⟨hexec', hb⟩ := (exec_eq_next_iff_body_ok (i := .decodeImage) ht).mpr hdecode
  exact ⟨b, hexec', hb, himgb, hwb.trans hw.symm, hhb.trans hh.symm⟩

end Sys2Proof.Proofs.EncoderFamily
end

section
/-! SUPPORT. `CNT.PARSE` test by test (44_decoder_pipeline.md R261, R262). -/

namespace Sys2Proof.Machine

/-- The tests of `CNT.PARSE` between the container's length and its dimensions: the format, the chunk width, the two
offsets and the palette's length (R262). -/
abbrev headerOk (buf : List Byte) : Prop :=
  memRead1 buf 3 ≤ 4 ∧ isChunkWidth (memRead1 buf 2 % 128) ∧
    (8 ≤ memRead2 buf 4 ∧ memRead2 buf 4 ≤ memRead2 buf 6 ∧ memRead2 buf 6 ≤ buf.length) ∧
    (memRead1 buf 3 = 0 → memRead2 buf 4 = memRead2 buf 6 ∧ memRead2 buf 6 = buf.length) ∧
    (memRead1 buf 3 = 1 → memRead2 buf 6 = buf.length) ∧
    paletteFits (memRead1 buf 3) (buf.length - memRead2 buf 6)

variable {s : State} {buf : List Byte}

/-- The same tests, as the ways in which a header is malformed (R262). -/
theorem headerOk_iff : headerOk buf ↔
    ¬(4 < memRead1 buf 3 ∨ ¬isChunkWidth (memRead1 buf 2 % 128) ∨
      ¬(8 ≤ memRead2 buf 4 ∧ memRead2 buf 4 ≤ memRead2 buf 6 ∧ memRead2 buf 6 ≤ buf.length) ∨
      (memRead1 buf 3 = 0 ∧ ¬(memRead2 buf 4 = memRead2 buf 6 ∧ memRead2 buf 6 = buf.length)) ∨
      (memRead1 buf 3 = 1 ∧ memRead2 buf 6 ≠ buf.length) ∨
      (2 ≤ memRead1 buf 3 ∧ ¬(1 ≤ buf.length - memRead2 buf 6 ∧
        buf.length - memRead2 buf 6 ≤ [0, 0, 2, 4, 16].getD (memRead1 buf 3) 0))) := by
  rw [not_or, not_lt]
  refine and_congr_right fun h4 => ?_
  rw [paletteFits_iff h4, not_or, not_not, not_or, not_not, not_or, not_and_not_right, not_or, ne_eq, not_and_not_right,
    not_and_not_right]

/-- `CNT.PARSE` as its four groups of tests and the state it leaves. -/
theorem opCntParse_of_buf (hbuf : s.mem.buf = .put buf) : opCntParse s = (do
    require (8 ≤ buf.length) .malformedContainer
    require (buf.length ≤ s.cfg.containerMax) .containerTooLarge
    require (headerOk buf) .malformedContainer
    require (1 ≤ memRead1 buf 0 ∧ 1 ≤ memRead1 buf 1) .zeroArea
    return parsed s buf) := by
  simp only [opCntParse, hbuf, Slot.read_put, ok_bind, require_bind_require, parsed]

/-- The value widths of the table (30_encoding.md R96), as a list. -/
theorem valueWidth_eq_getD {f : Nat} (h1 : 1 ≤ f) (hf : f ≤ 4) :
    BitVec.ofNat 4 (valueWidth f) = [0, 8, 1, 2, 4].getD f 0 := by
  interval_cases f <;> rfl

/-- The cursor at the start of the run-length region. -/
theorem State.setCursor_literal (s : State) :
    s.setCursor 8 0 false = { s with regs.si := .put 8, regs.bi := .put 0, eos := false } := rfl

/-- The state `CNT.PARSE` leaves, field by field (R261). -/
theorem parsed_eq (hf : memRead1 buf 3 ≤ 4) : parsed s buf = { s with
    regs.w := .put (buf.getD 0 0), regs.h := .put (buf.getD 1 0),
    regs.n := .put (BitVec.ofNat 7 (memRead1 buf 2 % 128)), regs.us := .put (BitVec.ofNat 1 (memRead1 buf 2 / 128)),
    regs.fmt := .put (buf.getD 3 0), regs.f4 := .put (BitVec.ofNat 16 (memRead2 buf 4)),
    regs.f6 := .put (BitVec.ofNat 16 (memRead2 buf 6)),
    regs.pw := .put (BitVec.ofNat 9 (paddedWidth (memRead1 buf 3) (memRead1 buf 0))),
    regs.vn := if memRead1 buf 3 = 0 then s.regs.vn else .put ([0, 8, 1, 2, 4].getD (memRead1 buf 3) 0),
    regs.rb := .put 8, regs.re := .put (BitVec.ofNat 17 (memRead2 buf 4)), regs.si := .put 8, regs.bi := .put 0,
    mem.pal := .put (buf.drop (memRead2 buf 6)), eos := false } := by
  have hbyte (i : Nat) : BitVec.ofNat 8 (memRead1 buf i) = buf.getD i 0 := toByte_toNat _
  simp only [parsed, hbyte]
  by_cases h1 : 1 ≤ memRead1 buf 3
  · rw [if_pos h1, if_neg (Nat.ne_zero_of_lt h1), valueWidth_eq_getD h1 hf]
    simp only [State.setW, State.setH, State.setN, State.setUs, State.setFmt, State.setF4, State.setF6, State.setPw,
      State.setVn, State.setPal, State.setRb, State.setRe, State.setCursor_literal]
  · rw [if_neg h1, if_pos (Nat.lt_one_iff.mp (not_le.mp h1))]
    simp only [State.setW, State.setH, State.setN, State.setUs, State.setFmt, State.setF4, State.setF6, State.setPw,
      State.setPal, State.setRb, State.setRe, State.setCursor_literal]

end Sys2Proof.Machine
end

section
/-! SUPPORT. The decoder's checkerboard, the unpacked colours and the cut rows (44_decoder_pipeline.md R265 to R267). -/

namespace Sys2Proof.Machine

section Rescreen

variable {pw : Nat} {str : List Byte}

@[simp] theorem rescreen_length (pw : Nat) (str : List Byte) : (rescreen pw str).length = str.length := by
  simp [rescreen]

theorem rescreen_getElem? (pw : Nat) (str : List Byte) (i : Nat) :
    (rescreen pw str)[i]? = str[i]?.map (fun b => if oddPlace pw i then 1 - b else b) := by
  simp only [rescreen, List.getElem?_map, List.getElem?_zipIdx, Option.map_map, Nat.zero_add]
  rfl

/-- The inverse toggle at place `(x, y)` (R265). -/
theorem pixelAt_rescreen {x : Nat} (hx : x < pw) (y : Nat) (str : List Byte) :
    pixelAt (rescreen pw str) pw x y =
      (pixelAt str pw x y).map (fun b => if (x ^^^ y) % 2 = 1 then 1 - b else b) := by
  simp only [pixelAt, rescreen_getElem?, oddPlace_index hx, decide_eq_true_eq]

/-- Toggling twice gives the stream back. -/
@[simp] theorem rescreen_rescreen (pw : Nat) (str : List Byte) : rescreen pw (rescreen pw str) = str := by
  refine List.ext_getElem? fun i => ?_
  rw [rescreen_getElem?, rescreen_getElem?, Option.map_map]
  cases oddPlace pw i <;> simp [Function.comp_def]

/-- A toggled stream of bits is one of bits, too. -/
theorem mem_rescreen (hstr : ∀ x ∈ str, x = 0 ∨ x = 1) : ∀ x ∈ rescreen pw str, x = 0 ∨ x = 1 := by
  intro x hx
  obtain ⟨⟨y, i⟩, hy, rfl⟩ := List.mem_map.mp hx
  have hmem : y ∈ str := List.fst_mem_of_mem_zipIdx hy
  rcases hstr y hmem with rfl | rfl <;> cases oddPlace pw i <;> simp

end Rescreen

/-- Two bits of a byte, as a channel value: 85 times them (30_encoding.md R99). -/
theorem levelValue_shift (c : Byte) (k : Nat) : levelValue (c.toNat / 2 ^ k % 4) = 85 * (c >>> k &&& 3) := by
  refine BitVec.eq_of_toNat_eq ?_
  have hmask : (c >>> k &&& 3).toNat = c.toNat / 2 ^ k % 4 := by
    rw [BitVec.toNat_and, BitVec.toNat_ushiftRight, Nat.shiftRight_eq_div_pow]
    exact Nat.and_two_pow_sub_one_eq_mod _ 2
  rw [BitVec.toNat_mul, hmask]
  exact BitVec.toNat_ofNat _ _

/-- The unpacked colour of a byte: each channel is 85 times its two bits (R266). -/
theorem unpackArgb8_eq (c : Byte) :
    unpackArgb8 c = ⟨85 * (c >>> 4 &&& 3), 85 * (c >>> 2 &&& 3), 85 * (c &&& 3), 85 * (c >>> 6)⟩ := by
  have hlt := c.isLt
  have hmod : c.toNat / 64 = c.toNat / 2 ^ 6 % 4 := by omega
  have hlow : c.toNat % 4 = c.toNat / 2 ^ 0 % 4 := by omega
  have htop : c >>> 6 &&& 3 = c >>> 6 := by
    refine BitVec.eq_of_toNat_eq ?_
    rw [BitVec.toNat_and, BitVec.toNat_ushiftRight, Nat.shiftRight_eq_div_pow]
    exact (Nat.and_two_pow_sub_one_eq_mod _ 2).trans hmod.symm
  have hr : levelValue (c.toNat / 16 % 4) = 85 * (c >>> 4 &&& 3) := levelValue_shift c 4
  have hg : levelValue (c.toNat / 4 % 4) = 85 * (c >>> 2 &&& 3) := levelValue_shift c 2
  have hb : levelValue (c.toNat % 4) = 85 * (c &&& 3) := hlow ▸ levelValue_shift c 0
  have ha : levelValue (c.toNat / 64) = 85 * (c >>> 6) := htop ▸ hmod ▸ levelValue_shift c 6
  rw [unpackArgb8, hr, hg, hb, ha]

/-- The pixel of an element, format by format (R266). -/
theorem expandPixel_eq_ite (f : Nat) (pal : List Byte) : expandPixel f pal = fun x =>
    if f = 0 then monoPixel x else if f = 1 then unpackArgb8 x else unpackArgb8 (pal.getD x.toNat 0) := by
  match f with
  | 0 => rfl
  | 1 => rfl
  | _ + 2 => rfl

/-- Formats 0 and 1 do not look at the palette. -/
theorem expandPixel_congr {f : Nat} {pal pal' : List Byte} (h : 2 ≤ f → pal' = pal) :
    expandPixel f pal' = expandPixel f pal := by
  match f with
  | 0 => rfl
  | 1 => rfl
  | _ + 2 => rw [h (Nat.le_add_left 2 _)]

section Crop

variable {α : Type} {w pw h : Nat} {xs : List α}

theorem length_take_row (hle : w ≤ pw) (row : List α) (hrow : row.length = pw) : (row.take w).length = w := by
  rw [List.length_take, hrow, Nat.min_eq_left hle]

/-- Cutting the rows down to `w` keeps every pixel left of `w` at its place (R267). -/
theorem pixelAt_crop (hle : w ≤ pw) (hxs : xs.length = pw * h) {x y : Nat} (hx : x < w) (hy : y < h) :
    pixelAt (mapRows pw (fun row => row.take w) h xs) w x y = pixelAt xs pw x y := by
  rw [pixelAt_mapRows (length_take_row hle) hxs hx hy, List.getElem?_take_of_lt hx, getElem?_row (hx.trans_le hle)]

end Crop

end Sys2Proof.Machine
end

section
/-! SUPPORT. `DECODE` as `CNT.PARSE`, `SEQ.UNPACK` and a list of operations that the header selects
(44_decoder_pipeline.md R268). -/

namespace Sys2Proof.Machine

/-- The steps of `DECODE` after `SEQ.UNPACK`, by the format and the flag of the header and the policy (R268). -/
def decodeSteps (cfg : Config) (fmt : BitVec 8) (us : BitVec 1) : List Instr :=
  if fmt ≠ 0 then [.fixUnpack, .rlxMv, .palExpand, .pixCrop]
  else if us = 1 ∧ cfg.unscreen = .symmetric then [.rlxBin, .pixRescr, .palExpand, .pixCrop]
  else [.rlxBin, .palExpand, .pixCrop]

/-- The window moved to the values region, from `f4` to `f6`, for the formats that have one (R268). -/
def State.moveWindow (s : State) (fmt : BitVec 8) (f4 f6 : BitVec 16) : State :=
  if fmt = 0 then s else { s with regs.rb := .put (f4.setWidth 17), regs.re := .put (f6.setWidth 17) }

@[simp] theorem State.moveWindow_fault (s : State) (fmt : BitVec 8) (f4 f6 : BitVec 16) :
    (s.moveWindow fmt f4 f6).fault = s.fault := by
  unfold State.moveWindow
  split <;> rfl

theorem sysReset_notMem_decodeSteps (cfg : Config) (fmt : BitVec 8) (us : BitVec 1) :
    Instr.sysReset ∉ decodeSteps cfg fmt us := by
  unfold decodeSteps
  split
  · decide
  · split <;> decide

variable {s p u t : State}

/-- The header registers that the later steps of `DECODE` read hold values; the parameters and `FAULT` are as
they were. -/
structure HeaderHeld (s p : State) : Prop where
  cfg : p.cfg = s.cfg
  fault : p.fault = s.fault
  fmt : p.regs.fmt = .put p.regs.fmt.val
  us : p.regs.us = .put p.regs.us.val
  f4 : p.regs.f4 = .put p.regs.f4.val
  f6 : p.regs.f6 = .put p.regs.f6.val

theorem headerHeld_of_opCntParse (h : opCntParse s = .ok p) : HeaderHeld s p := by
  obtain ⟨buf, -, -, -, hf, -, -, -, -, -, -, rfl⟩ := opCntParse_eq_ok.mp h
  rw [parsed_eq hf]
  exact ⟨rfl, rfl, rfl, rfl, rfl, rfl⟩

/-- The case that `DECODE` does not support: format 0, the flag set, policy off (R268). -/
abbrev unscreenOff (s p : State) : Prop := p.regs.fmt.val = 0 ∧ p.regs.us.val = 1 ∧ s.cfg.unscreen = .off

/-- The steps of `DECODE` after `SEQ.UNPACK` are operations one after the other. -/
theorem decodeStream_bind_eq_runBodies (fmt : BitVec 8) {us : BitVec 1} {f4 f6 : BitVec 16}
    (hus : u.regs.us = .put us) (hf4 : u.regs.f4 = .put f4) (hf6 : u.regs.f6 = .put f6) :
    (decodeStream fmt u >>= fun v => opPalExpand v >>= opPixCrop) =
      runBodies (decodeSteps u.cfg fmt us) (u.moveWindow fmt f4 f6) := by
  by_cases h0 : fmt = 0
  · rw [decodeStream, if_pos h0, decodeMono, hus, Slot.read_put, ok_bind, State.moveWindow, if_pos h0, decodeSteps,
      if_neg (not_not.mpr h0)]
    cases hrlx : opRlxBin u with
    | error x => split <;> simp [runBodies_cons, opBody, hrlx]
    | ok v =>
      have hcfg : v.cfg = u.cfg := by
        obtain ⟨-, -, -, -, -, -, -, -, -, rfl⟩ := opRlxBin_eq_ok.mp hrlx
        rfl
      rw [ok_bind, hcfg]
      split <;> simp [runBodies_cons, opBody, hrlx]
  · rw [decodeStream, if_neg h0, decodeValues, hf4, hf6, State.moveWindow, if_neg h0, decodeSteps, if_pos h0]
    simp only [Slot.read_put, ok_bind, runBodies_cons, bind_runBodies_nil, opBody, bind_assoc]
    rfl

/-- `SEQ.UNPACK` leaves the header registers alone. -/
theorem opSeqUnpack_header (h : opSeqUnpack p = .ok u) :
    u.cfg = p.cfg ∧ u.regs.fmt = p.regs.fmt ∧ u.regs.us = p.regs.us ∧ u.regs.f4 = p.regs.f4 ∧
      u.regs.f6 = p.regs.f6 := by
  obtain ⟨-, -, -, -, -, -, -, -, -, -, -, -, -, rfl⟩ := opSeqUnpack_eq_ok.mp h
  exact ⟨rfl, rfl, rfl, rfl, rfl⟩

/-- After `CNT.PARSE` has accepted a container that `DECODE` supports: `SEQ.UNPACK` and the steps of the header. -/
theorem opDecodeImage_of_parsed (hparse : opCntParse s = .ok p) (hon : ¬unscreenOff s p) :
    opDecodeImage s = opSeqUnpack p >>= fun u => runBodies (decodeSteps s.cfg p.regs.fmt.val p.regs.us.val)
      (u.moveWindow p.regs.fmt.val p.regs.f4.val p.regs.f6.val) := by
  have hp := headerHeld_of_opCntParse hparse
  rw [unscreenOff, ← hp.cfg] at hon
  rw [opDecodeImage, hparse, ok_bind, hp.fmt, hp.us, Slot.read_put, Slot.read_put, ok_bind, ok_bind, require_pos hon,
    ok_bind]
  cases hu : opSeqUnpack p with
  | error x => rfl
  | ok u =>
    obtain ⟨hcfg, -, hus, hf4, hf6⟩ := opSeqUnpack_header hu
    rw [ok_bind, ok_bind, decodeStream_bind_eq_runBodies _ (hus.trans hp.us) (hf4.trans hp.f4) (hf6.trans hp.f6), hcfg,
      hp.cfg]

theorem opDecodeImage_of_unscreenOff (hparse : opCntParse s = .ok p) (hoff : unscreenOff s p) :
    opDecodeImage s = .error .unscreenUnsupported := by
  have hp := headerHeld_of_opCntParse hparse
  rw [unscreenOff, ← hp.cfg] at hoff
  rw [opDecodeImage, hparse, ok_bind, hp.fmt, hp.us, Slot.read_put, Slot.read_put, ok_bind, ok_bind,
    require_neg (not_not.mpr hoff), error_bind]

/-- A command whose body faults, said by the code of its fault. -/
theorem exec_of_body_fault {i : Instr} {x : FaultCode} (hs : s.fault = 0) (h : opBody i s = .error x)
    (ht : t.fault = x.code) (hi : i ≠ .sysReset := by decide) :
    (t.fault = 0 → exec i s = .next t) ∧ (t.fault ≠ 0 → exec i s = faulted t.fault (encode i) s) :=
  ⟨fun h0 => absurd (ht.symm.trans h0) x.code_ne_zero, fun _ => ht ▸ exec_of_body_error x hs h hi⟩

/-- `DECODE` from the commands of its steps after `CNT.PARSE`: their last state, or their fault (R268). -/
theorem exec_decodeImage_of_steps (hs : s.fault = 0) (hparse : opCntParse s = .ok p) (hon : ¬unscreenOff s p)
    (hunpack : exec .seqUnpack p = .next u)
    (hrun : runCommands (decodeSteps s.cfg p.regs.fmt.val p.regs.us.val)
      (u.moveWindow p.regs.fmt.val p.regs.f4.val p.regs.f6.val) = .next t) :
    (t.fault = 0 → exec .decodeImage s = .next t) ∧
      (t.fault ≠ 0 → exec .decodeImage s = faulted t.fault (encode .decodeImage) s) := by
  have hp0 : p.fault = 0 := (headerHeld_of_opCntParse hparse).fault.trans hs
  have hnoReset := sysReset_notMem_decodeSteps s.cfg p.regs.fmt.val p.regs.us.val
  have hbody : opBody .decodeImage s = _ := opDecodeImage_of_parsed hparse hon
  cases hu : opSeqUnpack p with
  | error x =>
    rw [hu, error_bind] at hbody
    obtain rfl : takeFault x (encode .seqUnpack) p = u :=
      Host.Outcome.next.inj ((runOp_error hp0 hu).symm.trans hunpack)
    rw [runCommands_of_faulted hnoReset ((State.moveWindow_fault _ _ _ _).trans_ne x.code_ne_zero)] at hrun
    cases hrun
    exact exec_of_body_fault hs hbody (State.moveWindow_fault _ _ _ _)
  | ok u' =>
    rw [hu, ok_bind] at hbody
    obtain rfl : u' = u := Host.Outcome.next.inj ((runOp_ok hp0 hu).symm.trans hunpack)
    have hw0 : (u'.moveWindow p.regs.fmt.val p.regs.f4.val p.regs.f6.val).fault = 0 :=
      (State.moveWindow_fault _ _ _ _).trans ((opBody_fault (i := .seqUnpack) (by decide) hu).trans hp0)
    cases hrest : runBodies (decodeSteps s.cfg p.regs.fmt.val p.regs.us.val)
        (u'.moveWindow p.regs.fmt.val p.regs.f4.val p.regs.f6.val) with
    | error x =>
      exact exec_of_body_fault hs (hbody.trans hrest) (runCommands_of_bodies_error hnoReset hw0 hrest hrun)
    | ok t' =>
      obtain ⟨ht', hfault⟩ := runCommands_of_bodies_ok hnoReset hw0 hrest
      obtain rfl : t' = t := Host.Outcome.next.inj (ht'.symm.trans hrun)
      exact ⟨fun _ => exec_of_body_ok hs (hbody.trans hrest), fun hne => absurd hfault hne⟩

end Sys2Proof.Machine
end

section
/-! SUPPORT. `DECODE` of any well-formed container, step by step (44_decoder_pipeline.md R261, R264 to R268): the runs
need not be maximal, and bit 7 may be set in every format. -/

namespace Sys2Proof.Machine

theorem mem_alternating {a b x : Byte} {run : List Nat} (hx : x ∈ alternating a b run) : x = a ∨ x = b := by
  induction run generalizing a b with
  | nil => cases hx
  | cons r rs ih =>
    rcases List.mem_append.mp hx with hrun | hrest
    · exact .inl (List.eq_of_mem_replicate hrun)
    · exact (ih hrest).symm

theorem mem_of_mem_runStream {x : Byte} {run : List Nat} {vals : List Byte} (hx : x ∈ runStream run vals) :
    x ∈ vals := by
  induction run generalizing vals with
  | nil => cases hx
  | cons r rs ih =>
    cases vals with
    | nil => cases hx
    | cons v vs =>
      rcases List.mem_append.mp hx with hrun | hrest
      · exact List.eq_of_mem_replicate hrun ▸ List.mem_cons_self
      · exact List.mem_cons_of_mem v (ih hrest)

/-- The elements after the phantom are bits. -/
theorem mem_drop_alternating {x : Byte} {run : List Nat} (hx : x ∈ (alternating 0 1 run).drop 1) : x = 0 ∨ x = 1 :=
  mem_alternating (List.mem_of_mem_drop hx)

theorem getD_alternating (run : List Nat) (i : Nat) :
    (alternating 0 1 run).getD i 0 = 0 ∨ (alternating 0 1 run).getD i 0 = 1 := by
  rw [List.getD_eq_getElem?_getD]
  cases hb : (alternating 0 1 run)[i]? with
  | none => exact .inl rfl
  | some b => exact mem_alternating (List.mem_of_getElem? hb)

/-- The flag register holds bit 7 of the chunk-spec byte (R261). -/
theorem ofNat_one_eq_one_iff {us : Nat} (hus : us ≤ 1) : BitVec.ofNat 1 us = 1 ↔ us = 1 := by
  rw [← BitVec.toNat_inj, BitVec.toNat_ofNat, Nat.mod_eq_of_lt (by omega)]
  rfl

/-- The alternating stream without the phantom (42_run_length.md R211). -/
theorem length_drop_alternating {a b : Byte} {run : List Nat} {k : Nat} (hsum : run.sum = k + 1) :
    ((alternating a b run).drop 1).length = k := by
  rw [List.length_drop, alternating_length, hsum, Nat.add_sub_cancel]

/-- The bytes of a container, the header written out (30_encoding.md R93, R95). -/
theorem container_eq (w h : BitVec 8) (n us f : Nat) (rle vb pb : List Byte) :
    container w h n us f rle vb pb =
      [w, h, BitVec.ofNat 8 (n + 128 * us), BitVec.ofNat 8 f, BitVec.ofNat 8 ((8 + rle.length) % 256),
        BitVec.ofNat 8 ((8 + rle.length) / 256), BitVec.ofNat 8 ((8 + rle.length + vb.length) % 256),
        BitVec.ofNat 8 ((8 + rle.length + vb.length) / 256)] ++ rle ++ vb ++ pb := by
  simp only [container, headerBytes, toByte_toNat, chunkSpec, u16Bytes, List.cons_append, List.nil_append]

/-- A container in `BUF` whose tests `CNT.PARSE` passes and whose runs are legal, before `DECODE` looks at what they
cover. -/
structure Legible (s : State) (w h : BitVec 8) (n us f : Nat) (run : List Nat) (vb pb : List Byte) : Prop where
  cfg_wf : s.cfg.wf = true
  buf_eq : s.mem.buf = .put (container w h n us f (packSeq run n) vb pb)
  area : 1 ≤ w.toNat ∧ 1 ≤ h.toNat
  width : isChunkWidth n
  us_le : us ≤ 1
  format : f ≤ 4
  values : f = 0 → vb = []
  palette : f ≤ 1 → pb = []
  paletteFits : paletteFits f pb.length
  fits : containerFits s.cfg (packSeq run n) vb pb
  run_pos : ∀ r ∈ run, 1 ≤ r
  run_sum : run.sum ≤ 65535

/-- The image that `DECODE` makes of a stream: the rows of its pixels, cut down to the width (R266, R267). -/
def shownImage (w h : BitVec 8) (f : Nat) (pb str : List Byte) : List Pixel :=
  mapRows (paddedWidth f w.toNat) (fun row => row.take w.toNat) h.toNat (str.map (expandPixel f pb))

/-- The stream of format 0 from its runs: the phantom dropped, the toggle taken back where `DECODE` does so (R264,
R268). -/
def monoStream (cfg : Config) (us : BitVec 1) (pw : Nat) (run : List Nat) : List Byte :=
  if us = 1 ∧ cfg.unscreen = .symmetric then rescreen pw ((alternating 0 1 run).drop 1)
  else (alternating 0 1 run).drop 1

section Shown

variable {s r : State} {w h : BitVec 8} {n us f : Nat} {run : List Nat} {vb pb str : List Byte}

/-- `CNT.PARSE` and `SEQ.UNPACK` give the header fields and the runs. -/
theorem Legible.exists_runs (hl : Legible s w h n us f run vb pb) : ∃ p q, opCntParse s = .ok p ∧
    Opened s p w h n us f (packSeq run n) vb pb ∧ opSeqUnpack p = .ok q ∧ q.mem.run = .put run ∧
    Opened s q w h n us f (packSeq run n) vb pb := by
  obtain ⟨p, hparse, hp⟩ := exists_opened hl.buf_eq hl.area hl.width hl.us_le hl.format hl.values hl.palette
    hl.paletteFits hl.fits
  have hvbits : ∀ r ∈ run, fitsVBits p.cfg r = true := by
    intro r hr
    have hle : r ≤ run.sum := List.single_le_sum (fun _ _ => Nat.zero_le _) r hr
    have hsum := hl.run_sum
    rw [hp.cfg]
    exact fitsVBits_of_lt hl.cfg_wf (by omega)
  obtain ⟨q, hunpack, hrun, hq⟩ := exists_unpacked hp hl.width hl.run_pos hvbits hl.fits.2
  exact ⟨p, q, hparse, hp, hunpack, hrun, hq⟩

theorem Legible.pw_bounds (hl : Legible s w h n us f run vb pb) :
    w.toNat ≤ paddedWidth f w.toNat ∧ (BitVec.ofNat 9 (paddedWidth f w.toNat)).toNat = paddedWidth f w.toNat := by
  have hw := w.isLt
  obtain ⟨hle, -⟩ := paddedWidth_bounds (w := w.toNat) hl.format (by omega)
  exact ⟨hle, toNat_pw hl.format w⟩

/-- The padded grid of a container is not empty. -/
theorem Legible.grid_area (hl : Legible s w h n us f run vb pb) :
    1 ≤ (BitVec.ofNat 9 (paddedWidth f w.toNat)).toNat ∧ 1 ≤ h.toNat := by
  obtain ⟨hle, hpw⟩ := hl.pw_bounds
  obtain ⟨hw1, hh1⟩ := hl.area
  exact ⟨(hw1.trans hle).trans_eq hpw.symm, hh1⟩

/-- `PAL.EXPAND` and `PIX.CROP` make the image of a stream over the elements that the format allows. -/
theorem Legible.exists_shown (hl : Legible s w h n us f run vb pb) (hr : Shaped r w h f pb)
    (hstr : r.mem.str = .put str) (hlen : str.length = paddedWidth f w.toNat * h.toNat)
    (hbits : f = 0 → ∀ x ∈ str, x = 0 ∨ x = 1) (hpal : 2 ≤ f → ∀ x ∈ str, x.toNat < pb.length) :
    ∃ a, opPalExpand r = .ok a ∧ opPixCrop a =
      .ok ((r.setPimg (str.map (expandPixel f pb))).setImg (shownImage w h f pb str)) := by
  obtain ⟨hle, hpw⟩ := hl.pw_bounds
  obtain ⟨hw1, hh1⟩ := hl.area
  have hread : (2 ≤ f ∧ r.mem.pal = .put pb) ∨ (¬2 ≤ f ∧ pb = []) := by
    by_cases h2 : 2 ≤ f
    · exact .inl ⟨h2, hr.pal_eq⟩
    · exact .inr ⟨h2, hl.palette (by omega)⟩
  refine ⟨r.setPimg (str.map (expandPixel f pb)), opPalExpand_eq_ok.mpr
    ⟨str, _, _, h, pb, hstr, hr.fmt_eq, hr.pw_eq, hr.h_eq, ?_⟩,
    opPixCrop_eq_ok.mpr ⟨_, w, h, _, rfl, hr.w_eq, hr.h_eq, hr.pw_eq, ?_⟩⟩
  · rw [toNat_fmt hl.format, hpw, fmt_eq_zero_iff hl.format]
    exact ⟨hread, ⟨hw1.trans hle, hh1⟩, ⟨hl.format, hlen⟩, hbits, hl.paletteFits, hpal, rfl⟩
  · rw [hpw, List.length_map]
    exact ⟨⟨hw1, hh1, hw1.trans hle⟩, ⟨hle, hlen⟩, rfl⟩

theorem shownImage_length (hle : w.toNat ≤ paddedWidth f w.toNat)
    (hlen : str.length = paddedWidth f w.toNat * h.toNat) : (shownImage w h f pb str).length = w.toNat * h.toNat :=
  mapRows_length (length_take_row hle) h.toNat _ ((List.length_map _).trans hlen)

theorem pixelAt_shownImage (hle : w.toNat ≤ paddedWidth f w.toNat)
    (hlen : str.length = paddedWidth f w.toNat * h.toNat) {x y : Nat} (hx : x < w.toNat) (hy : y < h.toNat) :
    pixelAt (shownImage w h f pb str) w.toNat x y =
      (pixelAt str (paddedWidth f w.toNat) x y).map (expandPixel f pb) := by
  rw [shownImage, pixelAt_crop hle ((List.length_map _).trans hlen) hx hy, pixelAt, List.getElem?_map, pixelAt]

/-- `DECODE` of a container whose stream the steps between the runs and the expander give: the image of the stream. -/
theorem Legible.exists_decoded (hl : Legible s w h n us f run vb pb) (hs : s.fault = 0)
    (hon : ¬(f = 0 ∧ us = 1 ∧ s.cfg.unscreen = .off))
    (hstream : ∀ q, q.mem.run = .put run → Opened s q w h n us f (packSeq run n) vb pb →
      ∃ r, decodeStream (BitVec.ofNat 8 f) q = .ok r ∧ r.mem.str = .put str ∧ r.mem.buf = q.mem.buf ∧
        Shaped r w h f pb)
    (hlen : str.length = paddedWidth f w.toNat * h.toNat) (hbits : f = 0 → ∀ x ∈ str, x = 0 ∨ x = 1)
    (hpal : 2 ≤ f → ∀ x ∈ str, x.toNat < pb.length) :
    ∃ t, exec .decodeImage s = .next t ∧ t.fault = 0 ∧ t.regs.fmt = .put (BitVec.ofNat 8 f) ∧ t.regs.w = .put w ∧
      t.regs.h = .put h ∧ t.mem.buf = s.mem.buf ∧ t.mem.img = .put (shownImage w h f pb str) := by
  obtain ⟨p, q, hparse, hp, hunpack, hrun, hq⟩ := hl.exists_runs
  obtain ⟨r, hdecode, hstr, hbuf, hr⟩ := hstream q hrun hq
  obtain ⟨a, hexpand, hcrop⟩ := hl.exists_shown hr hstr hlen hbits hpal
  have hsupported : ¬(BitVec.ofNat 8 f = 0 ∧ BitVec.ofNat 1 us = 1 ∧ p.cfg.unscreen = .off) := by
    rwa [fmt_eq_zero_iff hl.format, ofNat_one_eq_one_iff hl.us_le, hp.cfg]
  obtain ⟨hexec, ht⟩ := (exec_eq_next_iff_body_ok (i := .decodeImage) hs).mpr (opDecodeImage_eq_ok.mpr
    ⟨p, _, _, q, r, a, hparse, hp.fmt_eq, hp.us_eq, hsupported, hunpack, hdecode, hexpand, hcrop⟩)
  exact ⟨_, hexec, ht, hr.fmt_eq, hr.w_eq, hr.h_eq, hbuf.trans (hq.buf_eq.trans hl.buf_eq.symm), rfl⟩

end Shown

section Mono

variable {s q : State} {w h : BitVec 8} {n us : Nat} {run : List Nat} {pw : Nat} {cfg : Config} {u : BitVec 1}

theorem mem_monoStream {x : Byte} (hx : x ∈ monoStream cfg u pw run) : x = 0 ∨ x = 1 := by
  unfold monoStream at hx
  split at hx
  · exact mem_rescreen (fun y => mem_drop_alternating) x hx
  · exact mem_drop_alternating hx

theorem monoStream_length {k : Nat} (hsum : run.sum = k + 1) : (monoStream cfg u pw run).length = k := by
  unfold monoStream
  split
  · rw [rescreen_length, length_drop_alternating hsum]
  · exact length_drop_alternating hsum

/-- `RLX.BIN` and, where the header and the policy say so, `PIX.RESCR`. -/
theorem decodeMono_of_runs {pw : BitVec 9} (hrun : q.mem.run = .put run) (hus : q.regs.us = .put u)
    (hpw : q.regs.pw = .put pw) (hh : q.regs.h = .put h) (harea : 1 ≤ pw.toNat ∧ 1 ≤ h.toNat)
    (hpos : ∀ r ∈ run, 1 ≤ r) (hsum : run.sum = pw.toNat * h.toNat + 1) :
    decodeMono q = .ok (q.setStr (monoStream q.cfg u pw.toNat run)) := by
  have hrlx : opRlxBin q = .ok (q.setStr ((alternating 0 1 run).drop 1)) := by
    refine opRlxBin_eq_ok.mpr ⟨run, pw, h, hrun, hpw, hh, harea, hpos, hsum, ?_⟩
    rw [expandBinary_eq_alternating]
    rfl
  refine decodeMono_eq_ok.mpr ⟨u, _, hus, hrlx, ?_⟩
  unfold monoStream
  by_cases htoggle : u = 1 ∧ q.cfg.unscreen = .symmetric
  · rw [if_pos htoggle]
    exact .inl ⟨htoggle, opPixRescr_eq_ok.mpr ⟨_, pw, h, rfl, hpw, hh, harea, length_drop_alternating hsum,
      fun x => mem_drop_alternating, rfl⟩⟩
  · rw [if_neg htoggle]
    exact .inr ⟨htoggle, rfl⟩

/-- The steps of format 0 between the runs and the expander (R268). -/
theorem Legible.exists_monoStream (hl : Legible s w h n us 0 run [] [])
    (hsum : run.sum = paddedWidth 0 w.toNat * h.toNat + 1) (hrun : q.mem.run = .put run)
    (hq : Opened s q w h n us 0 (packSeq run n) [] []) :
    ∃ r, decodeStream 0 q = .ok r ∧
      r.mem.str = .put (monoStream s.cfg (BitVec.ofNat 1 us) (paddedWidth 0 w.toNat) run) ∧
      r.mem.buf = q.mem.buf ∧ Shaped r w h 0 [] := by
  obtain ⟨-, hpw⟩ := hl.pw_bounds
  refine ⟨_, (if_pos rfl).trans
    (decodeMono_of_runs hrun hq.us_eq hq.pw_eq hq.h_eq hl.grid_area hl.run_pos (hpw.symm ▸ hsum)), ?_, rfl,
    ⟨hq.w_eq, hq.h_eq, hq.fmt_eq, hq.pw_eq, hq.pal_eq⟩⟩
  rw [hq.cfg, hpw]
  rfl

/-- An element of the stream of format 0: that of the alternating runs one place on, toggled at odd places. -/
theorem pixelAt_monoStream {k x y : Nat} (hsum : run.sum = pw * k + 1) (hx : x < pw) (hy : y < k) :
    pixelAt (monoStream cfg u pw run) pw x y = some
      (if (u = 1 ∧ cfg.unscreen = .symmetric) ∧ (x ^^^ y) % 2 = 1 then 1 - (alternating 0 1 run).getD (1 + y * pw + x) 0
        else (alternating 0 1 run).getD (1 + y * pw + x) 0) := by
  obtain ⟨b, -, hb⟩ := exists_pixelAt_eq_some (length_drop_alternating hsum) hx hy
  have hget : (alternating 0 1 run).getD (1 + y * pw + x) 0 = b := by
    rw [pixelAt, List.getElem?_drop, ← Nat.add_assoc] at hb
    rw [List.getD_eq_getElem?_getD, hb, Option.getD_some]
  rw [hget]
  unfold monoStream
  by_cases htoggle : u = 1 ∧ cfg.unscreen = .symmetric
  · rw [if_pos htoggle, pixelAt_rescreen hx, hb, Option.map_some]
    simp only [htoggle, true_and]
  · rw [if_neg htoggle, hb, if_neg fun hodd => htoggle hodd.1]

/-- The pixel of a bit that may be toggled. -/
theorem monoPixel_toggled {b : Byte} (hb : b = 0 ∨ b = 1) (p : Prop) [Decidable p] :
    monoPixel (if p then 1 - b else b) =
      if xor (decide (b = 1)) (decide p) then ⟨255, 255, 255, 255⟩ else ⟨0, 0, 0, 255⟩ := by
  rcases hb with rfl | rfl <;> by_cases hp : p <;> simp [hp, monoPixel]

end Mono

section Values

variable {s q : State} {w h : BitVec 8} {n us f : Nat} {run : List Nat} {vals pb : List Byte}

/-- The steps of formats 1 to 4 between the runs and the expander, the window moved to the values region (R268). -/
theorem Legible.exists_valueStream (hl : Legible s w h n us f run (valueRegion f vals) pb) (h1 : 1 ≤ f)
    (hsum : run.sum = paddedWidth f w.toNat * h.toNat) (hcount : vals.length = run.length)
    (hvals : ∀ g ∈ vals.map BitVec.toNat, g < 2 ^ valueWidth f) (hrun : q.mem.run = .put run)
    (hq : Opened s q w h n us f (packSeq run n) (valueRegion f vals) pb) :
    ∃ r, decodeStream (BitVec.ofNat 8 f) q = .ok r ∧ r.mem.str = .put (runStream run vals) ∧
      r.mem.buf = q.mem.buf ∧ Shaped r w h f pb := by
  obtain ⟨-, hpw⟩ := hl.pw_bounds
  rw [decodeStream, if_neg ((fmt_eq_zero_iff hl.format).not.mpr (Nat.ne_zero_of_lt h1))]
  refine ⟨_, decodeValues_eq_ok.mpr ⟨_, _, _, hq.f4_eq, hq.f6_eq,
    opFixUnpack_values h1 hl.format hq hrun hvals hcount hl.fits.2, opRlxMv_eq_ok.mpr ⟨run, vals, _, h, hrun, rfl,
      hq.pw_eq, hq.h_eq, hl.grid_area, hl.run_pos, hcount, hpw.symm ▸ hsum, rfl⟩⟩, ?_, rfl,
    ⟨hq.w_eq, hq.h_eq, hq.fmt_eq, hq.pw_eq, hq.pal_eq⟩⟩
  exact congrArg Slot.put (expandMulti_eq_runStream vals run)

/-- Values below the palette's length, or any bytes in format 1, fit in the width of the format (30_encoding.md R96). -/
theorem lt_valueWidth (h1 : 1 ≤ f) (hf : f ≤ 4)
    (hpal : 2 ≤ f → 1 ≤ pb.length ∧ pb.length ≤ maxPalette f ∧ ∀ v ∈ vals, v.toNat < pb.length) :
    ∀ g ∈ vals.map BitVec.toNat, g < 2 ^ valueWidth f := by
  intro g hg
  obtain ⟨v, hv, rfl⟩ := List.mem_map.mp hg
  by_cases h2 : 2 ≤ f
  · obtain ⟨-, hmax, hin⟩ := hpal h2
    exact ((hin v hv).trans_le hmax).trans_eq (maxPalette_eq_two_pow h2 hf)
  · obtain rfl : f = 1 := by omega
    exact v.isLt

/-- Formats 1 to 4 unpack the element or the palette entry it names (R266). -/
theorem expandPixel_of_one_le (h1 : 1 ≤ f) (pal : List Byte) :
    expandPixel f pal = fun e => unpackArgb8 (if f = 1 then e else pal.getD e.toNat 0) := by
  funext e
  rw [expandPixel_eq_ite]
  simp only [Nat.ne_zero_of_lt h1, if_false, apply_ite unpackArgb8]

end Values

/-- The grid of an image is no larger than the runs' numbers allow (10_state.md R21, R31). -/
theorem paddedGrid_le {f : Nat} (hf : f ≤ 4) (w h : BitVec 8) : paddedWidth f w.toNat * h.toNat ≤ 256 * 255 := by
  have hw := w.isLt
  have hh := h.isLt
  obtain ⟨-, hle⟩ := paddedWidth_bounds (w := w.toNat) hf (by omega)
  exact Nat.mul_le_mul hle (by omega)

end Sys2Proof.Machine
end

section
/-! PROOFS. The statements about the decoder pipeline (44_decoder_pipeline.md). -/

namespace Sys2Proof.Proofs.DecoderFamily

open Sys2Proof Sys2Proof.Machine

/-- Settles O53: the tests of the body in its order; the toggle is its own inverse and that of the encoder's. -/
theorem pixRescrResult : Obligations.PixRescrResult := by
  refine ⟨fun s hs hinvalid => exec_of_operand_invalid hs (by simpa [readSet, State.place, Slot.map] using hinvalid),
    fun s str pw h hs hstr hpw hh => ⟨fun hzero => ?_, fun hpw0 hh0 hbad => ?_, fun hpw0 hh0 hlen hbits => ?_⟩,
    fun pw str hbytes => rescreen_unscreen pw hbytes⟩
  · refine exec_of_body_error .zeroArea hs ?_
    have hnot : ¬(1 ≤ pw.toNat ∧ 1 ≤ h.toNat) := fun harea => one_le_toNat_two_iff.mp harea hzero
    simp only [opBody, opPixRescr, hstr, hpw, hh, Slot.read_put, ok_bind, error_bind, require_neg hnot]
  all_goals have harea : 1 ≤ pw.toNat ∧ 1 ≤ h.toNat := one_le_toNat_two_iff.mpr (not_or.mpr ⟨hpw0, hh0⟩)
  · refine exec_of_body_error .operandShape hs ?_
    have hnot : ¬(str.length = pw.toNat * h.toNat ∧ ∀ x ∈ str, x = 0 ∨ x = 1) := by
      rintro ⟨hlen, hbits⟩
      rcases hbad with hne | ⟨x, hx, hx0, hx1⟩
      · exact hne hlen
      · exact (hbits x hx).elim hx0 hx1
    simp only [opBody, opPixRescr, hstr, hpw, hh, Slot.read_put, ok_bind, error_bind, require_pos harea,
      require_bind_require, require_neg hnot]
  · refine ⟨rescreen pw.toNat str,
      exec_of_body_ok hs (opPixRescr_eq_ok.mpr ⟨str, pw, h, hstr, hpw, hh, harea, hlen, hbits, rfl⟩),
      rescreen_length pw.toNat str, fun x y hx _ => pixelAt_rescreen hx y str, exec_of_body_ok hs
        (opPixRescr_eq_ok.mpr ⟨rescreen pw.toNat str, pw, h, rfl, hpw, hh, harea, by simpa using hlen,
          mem_rescreen hbits, ?_⟩)⟩
    rw [rescreen_rescreen, State.setStr, ← hstr]

/-- Settles O54: the tests of the body in its order; those about the stream's and the palette's form share one fault. -/
theorem palExpandResult : Obligations.PalExpandResult := by
  refine ⟨fun s hs hinvalid => exec_of_operand_invalid hs fun hvalid => hinvalid ?_,
    fun s str fmt pw h pal hs hstr hfmt hpw hh hpal => ?_⟩
  · simp only [readSet, List.forall_mem_append, List.forall_mem_cons] at hvalid
    obtain ⟨⟨hstr, hfmt, hpw, hh, -⟩, hpal⟩ := hvalid
    exact ⟨hstr, hfmt, hpw, hh, fun h2 => hpal (.buf .pal) (by simp [h2])⟩
  · obtain ⟨pal', hread, hpal'⟩ := Slot.exists_readIf_eq_ok [] hpal
    have hshape (h4 : fmt.toNat ≤ 4) : paletteFits fmt.toNat pal'.length ↔
        (2 ≤ fmt.toNat → 1 ≤ pal.length ∧ pal.length ≤ [0, 0, 2, 4, 16].getD fmt.toNat 0) :=
      (paletteFits_iff h4 _).trans (forall_congr' fun h2 => by rw [hpal' h2])
    refine ⟨fun hzero => ?_, fun hpw0 hh0 hbad => ?_, fun hpw0 hh0 ⟨h4, hlen, hbits, hfits⟩ h2 ⟨x, hx, hover⟩ => ?_,
      fun hpw0 hh0 ⟨h4, hlen, hbits, hfits⟩ hin => ?_⟩
    · refine exec_of_body_error .zeroArea hs ?_
      have hnot : ¬(1 ≤ pw.toNat ∧ 1 ≤ h.toNat) := fun harea => one_le_toNat_two_iff.mp harea hzero
      simp only [opBody, opPalExpand, hstr, hfmt, hpw, hh, hread, Slot.read_put, ok_bind, error_bind, require_neg hnot]
    all_goals have harea : 1 ≤ pw.toNat ∧ 1 ≤ h.toNat := one_le_toNat_two_iff.mpr (not_or.mpr ⟨hpw0, hh0⟩)
    · refine exec_of_body_error .operandShape hs ?_
      have hnot : ¬((fmt.toNat ≤ 4 ∧ str.length = pw.toNat * h.toNat) ∧ (fmt = 0 → ∀ x ∈ str, x = 0 ∨ x = 1) ∧
          paletteFits fmt.toNat pal'.length) :=
        fun ⟨⟨h4, hlen⟩, hbits, hfits⟩ => hbad ⟨h4, hlen, hbits, (hshape h4).mp hfits⟩
      simp only [opBody, opPalExpand, hstr, hfmt, hpw, hh, hread, Slot.read_put, ok_bind, error_bind,
        require_pos harea, require_bind_require, require_neg hnot]
    · refine exec_of_body_error .malformedContainer hs ?_
      have hnot : ¬(2 ≤ fmt.toNat → ∀ x ∈ str, x.toNat < pal'.length) := fun hin =>
        absurd (hpal' h2 ▸ hin h2 x hx) (not_lt.mpr hover)
      simp only [opBody, opPalExpand, hstr, hfmt, hpw, hh, hread, Slot.read_put, ok_bind, error_bind,
        require_pos harea, require_pos (And.intro h4 hlen), require_pos hbits, require_pos ((hshape h4).mpr hfits),
        require_neg hnot]
    · have hin' : 2 ≤ fmt.toNat → ∀ x ∈ str, x.toNat < pal'.length := fun h2 => hpal' h2 ▸ hin h2
      have hfmt0 : fmt.toNat = 0 ↔ fmt = 0 := BitVec.toNat_inj (y := 0)
      have hfmt1 : fmt.toNat = 1 ↔ fmt = 1 := BitVec.toNat_inj (y := 1)
      rw [exec_of_body_ok (i := .palExpand) hs (opPalExpand_eq_ok.mpr ⟨str, fmt, pw, h, pal', hstr, hfmt, hpw, hh,
        Slot.readIf_eq_ok.mp hread, harea, ⟨h4, hlen⟩, hbits, (hshape h4).mpr hfits, hin', rfl⟩), State.setPimg]
      simp only [expandPixel_congr hpal', expandPixel_eq_ite, hfmt0, hfmt1, monoPixel, unpackArgb8_eq]

/-- Settles O55: the tests of the body in its order, then the rows cut down to the width. -/
theorem pixCropResult : Obligations.PixCropResult := by
  refine ⟨fun s hs hinvalid => exec_of_operand_invalid hs (by simpa [readSet, State.place, Slot.map] using hinvalid),
    fun s pimg w h pw hs hpimg hw hh hpw => ⟨fun hzero => ?_, fun hw0 hh0 hpw0 hshape => ?_,
      fun hw0 hh0 hpw0 hle hlen => ?_⟩⟩
  · refine exec_of_body_error .zeroArea hs ?_
    have hnot : ¬(1 ≤ w.toNat ∧ 1 ≤ h.toNat ∧ 1 ≤ pw.toNat) := fun harea => one_le_toNat_three_iff.mp harea hzero
    simp only [opBody, opPixCrop, hpimg, hw, hh, hpw, Slot.read_put, ok_bind, error_bind, require_neg hnot]
  all_goals
    have harea : 1 ≤ w.toNat ∧ 1 ≤ h.toNat ∧ 1 ≤ pw.toNat :=
      one_le_toNat_three_iff.mpr (not_or.mpr ⟨hw0, not_or.mpr ⟨hh0, hpw0⟩⟩)
  · refine exec_of_body_error .operandShape hs ?_
    simp only [opBody, opPixCrop, hpimg, hw, hh, hpw, Slot.read_put, ok_bind, error_bind, require_pos harea,
      require_neg hshape]
  · exact ⟨_, exec_of_body_ok hs (opPixCrop_eq_ok.mpr ⟨pimg, w, h, pw, hpimg, hw, hh, hpw, harea, ⟨hle, hlen⟩, rfl⟩),
      mapRows_length (length_take_row hle) h.toNat pimg hlen, fun x y hx hy => pixelAt_crop hle hlen hx hy⟩

/-- Settles O52: the four groups of tests of the body, then the header fields. -/
theorem cntParseResult : Obligations.CntParseResult := by
  refine ⟨fun s hs hinvalid => exec_of_operand_invalid hs (by simpa [readSet, State.place, Slot.map] using hinvalid),
    fun s buf hs hbuf => ?_⟩
  have hbody : opBody .cntParse s = _ := opCntParse_of_buf hbuf
  refine ⟨fun hshort => ?_, fun hlen hbig => ?_, fun hlen hmax hwrong => ?_, fun hlen hmax hok hzero => ?_,
    fun hlen hmax hok hw hh => ?_⟩
  · refine exec_of_body_error .malformedContainer hs ?_
    rw [hbody, require_neg (not_le.mpr hshort), error_bind]
  all_goals rw [require_pos hlen, ok_bind] at hbody
  · refine exec_of_body_error .containerTooLarge hs ?_
    rw [hbody, require_neg (not_le.mpr hbig), error_bind]
  all_goals rw [require_pos hmax, ok_bind] at hbody
  · refine exec_of_body_error .malformedContainer hs ?_
    rw [hbody, require_neg (headerOk_iff.not_left.mpr hwrong), error_bind]
  all_goals
    have hheader : headerOk buf := headerOk_iff.mpr hok
    rw [require_pos hheader, ok_bind] at hbody
  · refine exec_of_body_error .zeroArea hs ?_
    rw [hbody, require_neg, error_bind]
    rintro ⟨hw, hh⟩
    exact hzero.elim (Nat.ne_zero_of_lt hw) (Nat.ne_zero_of_lt hh)
  · have harea : 1 ≤ memRead1 buf 0 ∧ 1 ≤ memRead1 buf 1 :=
      ⟨Nat.one_le_iff_ne_zero.mpr hw, Nat.one_le_iff_ne_zero.mpr hh⟩
    obtain ⟨hfmt, -⟩ := hheader
    rw [require_pos harea, ok_bind, pure_eq_ok, parsed_eq hfmt] at hbody
    exact exec_of_body_ok hs hbody

/-- Settles O56: the runs come back as an alternating stream, toggled where the policy says so, and its elements are
shown black and white. -/
theorem decodeOfAMonochromeContainer : Obligations.DecodeOfAMonochromeContainer := by
  intro s w h n us runs hs hcfg hw0 hh0 hn hus hpos hsum rle f4 pw hmax h4 hbuf
  have hgrid := paddedGrid_le (f := 0) (by decide) w h
  have hl : Legible s w h n us 0 runs [] [] := {
    cfg_wf := hcfg
    buf_eq := by rw [container_eq, List.append_nil, List.append_nil]; exact hbuf
    area := one_le_toNat_two_iff.mpr (not_or.mpr ⟨hw0, hh0⟩)
    width := hn
    us_le := hus
    format := Nat.zero_le 4
    values := fun _ => rfl
    palette := fun _ => rfl
    paletteFits := fun h2 => absurd h2 (by decide)
    fits := ⟨hmax, h4⟩
    run_pos := hpos
    run_sum := by omega }
  obtain ⟨hle, -⟩ := hl.pw_bounds
  refine ⟨fun h1 hoff => ?_, fun hon => ?_⟩
  · obtain ⟨p, -, hparse, hp, -⟩ := hl.exists_runs
    refine exec_of_body_error .unscreenUnsupported hs (opDecodeImage_of_unscreenOff hparse ⟨?_, ?_, hoff⟩)
    · rw [hp.fmt_eq]
      rfl
    · rw [hp.us_eq, h1]
      rfl
  · have hlen : (monoStream s.cfg (BitVec.ofNat 1 us) pw runs).length = pw * h.toNat := monoStream_length hsum
    obtain ⟨t, hexec, ht, hfmt, hw, hh, htbuf, himg⟩ := hl.exists_decoded hs (fun ⟨_, hoff⟩ => hon hoff)
      (fun q => hl.exists_monoStream hsum) hlen (fun _ _ => mem_monoStream) (fun h2 => absurd h2 (by decide))
    refine ⟨t, _, hexec, ht, hfmt, hw, hh, htbuf, himg, shownImage_length hle hlen, fun x y hx hy => ?_⟩
    rw [pixelAt_shownImage hle hlen hx hy, pixelAt_monoStream hsum (hx.trans_le hle) hy, Option.map_some]
    refine congrArg some ((monoPixel_toggled (getD_alternating _ _) _).trans ?_)
    simp only [ofNat_one_eq_one_iff hus, and_assoc, pw]

/-- Settles O57: the runs and the values come back as their stream, and its elements are shown as their colours. -/
theorem decodeOfAColorContainer : Obligations.DecodeOfAColorContainer := by
  intro s w h n us f runs vals pal hs hcfg hw0 hh0 hn hus h1 hf hpos hsum hcount hnone hpal rle vb f4 f6 pw hmax h6 hbuf
  have hgrid := paddedGrid_le hf w h
  have hregion := valueRegion_of_one_le h1 vals
  have hl : Legible s w h n us f runs (valueRegion f vals) pal := {
    cfg_wf := hcfg
    buf_eq := by rw [container_eq, hregion]; exact hbuf
    area := one_le_toNat_two_iff.mpr (not_or.mpr ⟨hw0, hh0⟩)
    width := hn
    us_le := hus
    format := hf
    values := fun h0 => absurd h0 (Nat.ne_zero_of_lt h1)
    palette := fun hle => hnone (le_antisymm hle h1)
    paletteFits := fun h2 =>
      have ⟨hpos, hle, _⟩ := hpal h2
      ⟨hpos, hle⟩
    fits := by rw [hregion]; exact ⟨hmax, h6⟩
    run_pos := hpos
    run_sum := by omega }
  obtain ⟨hle, -⟩ := hl.pw_bounds
  have hlen : (runStream runs vals).length = paddedWidth f w.toNat * h.toNat := (runStream_length hcount).trans hsum
  have h0 : ¬f = 0 := Nat.ne_zero_of_lt h1
  obtain ⟨t, hexec, ht, hfmt, hw, hh, htbuf, himg⟩ := hl.exists_decoded hs (fun ⟨hf0, _⟩ => h0 hf0)
    (fun q => hl.exists_valueStream h1 hsum hcount (lt_valueWidth h1 hf hpal)) hlen (fun hf0 => absurd hf0 h0)
    (fun h2 x hx =>
      have ⟨_, _, hin⟩ := hpal h2
      hin x (mem_of_mem_runStream hx))
  refine ⟨t, _, hexec, ht, hfmt, hw, hh, htbuf, himg, shownImage_length hle hlen, fun x y hx hy => ?_⟩
  rw [pixelAt_shownImage hle hlen hx hy, expandPixel_of_one_le h1]

/-- Settles O58: after `CNT.PARSE`, `DECODE` runs the bodies of the steps that the header selects, which answer or
fault as the commands do. -/
theorem decodeImageEqualsItsSteps : Obligations.DecodeImageEqualsItsSteps := by
  refine ⟨fun s t hs hexec ht => ?_, fun s p hs hexec => ?_⟩
  · have hbody : opDecodeImage s = .ok t := (exec_eq_next_iff_body_ok (i := .decodeImage) hs).mp ⟨hexec, ht⟩
    obtain ⟨p, -, -, -, -, -, hparse, -⟩ := opDecodeImage_eq_ok.mp hbody
    have hon : ¬unscreenOff s p := by
      intro hoff
      rw [opDecodeImage_of_unscreenOff hparse hoff] at hbody
      cases hbody
    rw [opDecodeImage_of_parsed hparse hon] at hbody
    obtain ⟨u, hunpack, hsteps⟩ := bind_eq_ok.mp hbody
    obtain ⟨-, hfmt, hus, hf4, hf6⟩ := opSeqUnpack_header hunpack
    have hfront : runBodies [.cntParse, .seqUnpack] s = .ok u := by
      simp only [runBodies_cons, bind_runBodies_nil, opBody, hparse, ok_bind, hunpack]
    obtain ⟨hu, hu0⟩ := runCommands_of_bodies_ok (by decide) hs hfront
    obtain ⟨hrun, -⟩ := runCommands_of_bodies_ok (sysReset_notMem_decodeSteps _ _ _)
      ((State.moveWindow_fault u _ _ _).trans hu0) hsteps
    rw [unscreenOff, ← hfmt, ← hus] at hon
    rw [← hfmt, ← hus, ← hf4, ← hf6, decodeSteps, State.moveWindow] at hrun
    refine ⟨u, hu, fun h0 => ⟨fun hoff => hon ⟨h0, hoff⟩, fun h1 hsym => ?_, fun hplain => ?_⟩, fun h0 => ?_⟩
    · rwa [if_neg (not_not.mpr h0), if_pos ⟨h1, hsym⟩, if_pos h0] at hrun
    · rwa [if_neg (not_not.mpr h0), if_neg hplain, if_pos h0] at hrun
    · rwa [if_pos h0, if_neg h0] at hrun
  · cases hparse : opCntParse s with
    | error x =>
      obtain rfl : takeFault x (encode .cntParse) s = p :=
        Host.Outcome.next.inj ((runOp_error hs hparse).symm.trans hexec)
      have hdecode : opDecodeImage s = .error x := by rw [opDecodeImage, hparse, error_bind]
      exact ⟨fun _ => exec_of_body_error x hs hdecode, fun h0 => absurd h0 x.code_ne_zero,
        fun _ _ h0 => absurd h0 x.code_ne_zero⟩
    | ok p' =>
      obtain rfl : p' = p := Host.Outcome.next.inj ((runOp_ok hs hparse).symm.trans hexec)
      exact ⟨fun hne => absurd ((headerHeld_of_opCntParse hparse).fault.trans hs) hne,
        fun _ hoff => exec_of_body_error .unscreenUnsupported hs (opDecodeImage_of_unscreenOff hparse hoff),
        fun _ _ _ hon hunpack hrun => exec_decodeImage_of_steps hs hparse hon hunpack hrun⟩

end Sys2Proof.Proofs.DecoderFamily
end

section
/-! SUPPORT. Which faults a computation can take, and the table of faults held against every operation's body
(60_exceptions.md R301, R304). -/

namespace Sys2Proof.Machine

/-- The computation takes no fault but those `P` allows. -/
def Raises {α : Type} (P : FaultCode → Prop) (r : Except FaultCode α) : Prop := ∀ x, r = .error x → P x

section Raises

variable {α β : Type} {P : FaultCode → Prop} {r : Except FaultCode α} {f : α → Except FaultCode β}

theorem Raises.ok (a : α) : Raises P (.ok a) := fun _ h => nomatch h

theorem Raises.error {e : FaultCode} (h : P e) : Raises P (.error e : Except FaultCode α) := by
  rintro _ ⟨⟩
  exact h

theorem Raises.mono {Q : FaultCode → Prop} (h : Raises P r) (hPQ : ∀ x, P x → Q x) : Raises Q r :=
  fun x hx => hPQ x (h x hx)

/-- The next part runs only where the first has answered. -/
theorem Raises.bind (h : Raises P r) (k : ∀ a, r = .ok a → Raises P (f a)) : Raises P (r >>= f) := by
  intro x hx
  rcases bind_eq_error.mp hx with hr | ⟨a, ha, hf⟩
  · exact h x hr
  · exact k a ha x hf

/-- An operand that is read holds its value from there on (10_state.md R23). -/
theorem Raises.read {x : Slot α} (k : ∀ a, x = .put a → Raises P (f a))
    (h : x.valid = false → P .operandInvalid := by intro _; decide) : Raises P (x.read >>= f) := by
  refine .bind (fun e he => ?_) fun a ha => k a (Slot.read_eq_ok.mp ha)
  obtain ⟨hvalid, rfl⟩ := Slot.read_eq_error.mp he
  exact h hvalid

theorem Raises.readIf {x : Slot α} {p : Prop} [Decidable p] {d : α}
    (k : ∀ a, (p ∧ x = .put a) ∨ (¬p ∧ a = d) → Raises P (f a))
    (h : p → x.valid = false → P .operandInvalid := by intro _ _; decide) : Raises P (x.readIf p d >>= f) := by
  refine .bind (fun e he => ?_) fun a ha => k a (Slot.readIf_eq_ok.mp ha)
  obtain ⟨hp, hvalid, rfl⟩ := Slot.readIf_eq_error.mp he
  exact h hp hvalid

/-- A requirement holds from there on (00_scope.md R15). -/
theorem Raises.require {p : Prop} [Decidable p] {e : FaultCode} {f : Unit → Except FaultCode β}
    (k : p → Raises P (f ())) (h : ¬p → P e := by intro _; decide) : Raises P (require p e >>= f) := by
  refine .bind (fun x hx => ?_) fun _ hp => k (require_eq_ok.mp hp)
  obtain ⟨hp, rfl⟩ := require_eq_error.mp hx
  exact h hp

theorem runBodies_raises {is : List Instr} (h : ∀ i ∈ is, ∀ s, Raises P (opBody i s)) (s : State) :
    Raises P (runBodies is s) := by
  induction is generalizing s with
  | nil => exact .ok s
  | cons i is ih =>
    exact .bind (h i List.mem_cons_self s) fun t _ => ih (fun j hj => h j (List.mem_cons_of_mem i hj)) t

end Raises

/-- The fault table lists the operation as raising the fault (60_exceptions.md R301). -/
abbrev Listed (i : Instr) (x : FaultCode) : Prop := i ∈ x.raisedBy

section Table

variable {s : State}

theorem opVwiEnc_raises : Raises (Listed .vwiEnc) (opVwiEnc s) := by
  unfold opVwiEnc
  exact .read fun _ _ => .read fun _ _ => .require fun _ => .require fun _ => .ok _

theorem opVwiDec_raises : Raises (Listed .vwiDec) (opVwiDec s) := by
  unfold opVwiDec
  refine .read fun buf _ => .read fun re _ => .read fun si _ => .read fun bi _ => .read fun n _ => .require fun _ =>
    .require fun _ => .require fun _ => .require fun _ => ?_
  cases nextValue buf re.toNat (8 * si.toNat + bi.toNat) n.toNat with
  | value v p => exact .require fun _ => .ok _
  | endOfStream p => exact .ok _
  | truncated => exact .error (by decide)

theorem opChkPack_raises : Raises (Listed .chkPack) (opChkPack s) := by
  unfold opChkPack
  exact .read fun _ _ => .read fun _ _ => .require fun _ => .require fun _ => .ok _

theorem opChkGet_raises : Raises (Listed .chkGet) (opChkGet s) := by
  unfold opChkGet
  refine .read fun _ _ => .read fun re _ => .read fun si _ => .read fun bi _ => .read fun n _ => .require fun _ =>
    .require fun _ => .require fun _ => .require fun _ => ?_
  by_cases hend : si = re
  · rw [if_pos hend]
    exact .ok _
  · rw [if_neg hend]
    split <;> exact .ok _

theorem opSeqPack_raises : Raises (Listed .seqPack) (opSeqPack s) := by
  unfold opSeqPack
  exact .read fun _ _ => .read fun _ _ => .require fun _ => .require fun _ => .ok _

theorem opSeqUnpack_raises : Raises (Listed .seqUnpack) (opSeqUnpack s) := by
  unfold opSeqUnpack
  refine .read fun buf _ => .read fun rb _ => .read fun re _ => .read fun n _ => .require fun _ => .require fun _ => ?_
  cases unpackSeq buf rb.toNat re.toNat n.toNat with
  | none => exact .error (by decide)
  | some r => exact .require fun _ => .ok _

theorem opFixPack_raises : Raises (Listed .fixPack) (opFixPack s) := by
  unfold opFixPack
  exact .read fun _ _ => .read fun _ _ => .require fun _ => .require fun _ => .ok _

theorem opFixUnpack_raises : Raises (Listed .fixUnpack) (opFixUnpack s) := by
  unfold opFixUnpack
  exact .read fun _ _ => .read fun _ _ => .read fun _ _ => .read fun _ _ => .read fun _ _ => .require fun _ =>
    .require fun _ => .require fun _ => .ok _

theorem opCurSet_raises : Raises (Listed .curSet) (opCurSet s) := by
  unfold opCurSet
  exact .read fun _ _ => .read fun _ _ => .read fun _ _ => .require fun _ => .ok _

theorem opPixClean_raises : Raises (Listed .pixClean) (opPixClean s) := by
  unfold opPixClean
  exact .read fun _ _ => .ok _

theorem opPixQuant_raises : Raises (Listed .pixQuant) (opPixQuant s) := by
  unfold opPixQuant
  exact .read fun _ _ => .ok _

theorem opPixPack8_raises : Raises (Listed .pixPack8) (opPixPack8 s) := by
  unfold opPixPack8
  exact .read fun _ _ => .ok _

theorem opClsCount_raises : Raises (Listed .clsCount) (opClsCount s) := by
  unfold opClsCount
  exact .read fun _ _ => .ok _

theorem classify_raises {cfg : Config} {var : BitVec 1} {many : Bool} {pal : List Byte} :
    Raises (· = .notMonochrome) (classify cfg var many pal) := by
  unfold classify
  split
  · repeat' split
    all_goals exact .ok _
  · split
    · exact .ok _
    · exact .error rfl

theorem opClsFmt_raises : Raises (Listed .clsFmt) (opClsFmt s) := by
  unfold opClsFmt
  refine .read fun _ _ => .read fun _ _ => .read fun _ _ => .require fun _ => .require fun _ =>
    .bind (classify_raises.mono ?_) fun _ _ => .ok _
  rintro _ rfl
  decide

theorem opGenMono_raises : Raises (Listed .genMono) (opGenMono s) := by
  unfold opGenMono
  exact .read fun _ _ => .read fun _ _ => .read fun _ _ => .read fun _ _ => .read fun _ _ => .require fun _ =>
    .require fun _ => .require fun _ => .ok _

theorem opGenVal_raises : Raises (Listed .genVal) (opGenVal s) := by
  unfold opGenVal
  exact .read fun _ _ => .read fun _ _ => .read fun _ _ => .read fun _ _ => .read fun _ _ => .readIf fun _ _ =>
    .require fun _ => .require fun _ => .require fun _ => .ok _

theorem opGenUnscr_raises : Raises (Listed .genUnscr) (opGenUnscr s) := by
  unfold opGenUnscr
  exact .read fun _ _ => .read fun _ _ => .read fun _ _ => .require fun _ => .require fun _ => .ok _

theorem opRleBin_raises : Raises (Listed .rleBin) (opRleBin s) := by
  unfold opRleBin
  exact .read fun _ _ => .require fun _ => .ok _

theorem opRleMv_raises : Raises (Listed .rleMv) (opRleMv s) := by
  unfold opRleMv
  exact .read fun _ _ => .ok _

theorem opRlxBin_raises : Raises (Listed .rlxBin) (opRlxBin s) := by
  unfold opRlxBin
  exact .read fun _ _ => .read fun _ _ => .read fun _ _ => .require fun _ => .require fun _ => .require fun _ => .ok _

theorem opRlxMv_raises : Raises (Listed .rlxMv) (opRlxMv s) := by
  unfold opRlxMv
  exact .read fun _ _ => .read fun _ _ => .read fun _ _ => .read fun _ _ => .require fun _ => .require fun _ =>
    .require fun _ => .require fun _ => .ok _

theorem packCandidate_raises (c : Candidate) : Raises (· = .encodeIntegrityError) (packCandidate c) :=
  .require (fun _ => .ok _) fun _ => rfl

theorem searchFrom_raises (best : Packed) (cs : List Candidate) :
    Raises (· = .encodeIntegrityError) (searchFrom best cs) := by
  induction cs generalizing best with
  | nil => exact .ok best
  | cons c cs ih => exact .bind (packCandidate_raises c) fun p _ => ih _

theorem search_raises (run : List Nat) (fifth : List Candidate) :
    Raises (· = .encodeIntegrityError) (search run fifth) :=
  .bind (packCandidate_raises _) fun first _ => searchFrom_raises first _

theorem opCntSearch_raises : Raises (Listed .cntSearch) (opCntSearch s) := by
  unfold opCntSearch
  refine .read fun _ _ => .read fun _ _ => .readIf fun _ _ => .readIf fun _ _ => .readIf fun _ _ => .require fun _ =>
    .require fun _ => .require fun _ => .require fun _ => .bind ((search_raises _ _).mono ?_) fun _ _ => .ok _
  rintro _ rfl
  decide

theorem opCntAsm_raises : Raises (Listed .cntAsm) (opCntAsm s) := by
  unfold opCntAsm
  exact .read fun _ _ => .read fun _ _ => .read fun _ _ => .read fun _ _ => .read fun _ _ => .read fun _ _ =>
    .readIf fun _ _ => .readIf fun _ _ => .require fun _ => .require fun _ => .require fun _ => .require fun _ =>
    .require fun _ => .require fun _ => .ok _

theorem opCntParse_raises : Raises (Listed .cntParse) (opCntParse s) := by
  unfold opCntParse
  exact .read fun _ _ => .require fun _ => .require fun _ => .require fun _ => .require fun _ => .require fun _ =>
    .require fun _ => .require fun _ => .require fun _ => .require fun _ => .ok _

theorem opPixRescr_raises : Raises (Listed .pixRescr) (opPixRescr s) := by
  unfold opPixRescr
  exact .read fun _ _ => .read fun _ _ => .read fun _ _ => .require fun _ => .require fun _ => .require fun _ => .ok _

theorem opPalExpand_raises : Raises (Listed .palExpand) (opPalExpand s) := by
  unfold opPalExpand
  exact .read fun _ _ => .read fun _ _ => .read fun _ _ => .read fun _ _ => .readIf fun _ _ => .require fun _ =>
    .require fun _ => .require fun _ => .require fun _ => .require fun _ => .ok _

theorem opPixCrop_raises : Raises (Listed .pixCrop) (opPixCrop s) := by
  unfold opPixCrop
  exact .read fun _ _ => .read fun _ _ => .read fun _ _ => .read fun _ _ => .require fun _ => .require fun _ => .ok _

theorem opBody_raises_of_basic {i : Instr} (hi : isBasic i) (s : State) : Raises (Listed i) (opBody i s) := by
  cases i with
  | sysReset => exact absurd hi (by decide)
  | vwiEnc => exact opVwiEnc_raises
  | vwiDec => exact opVwiDec_raises
  | chkPack => exact opChkPack_raises
  | chkGet => exact opChkGet_raises
  | seqPack => exact opSeqPack_raises
  | seqUnpack => exact opSeqUnpack_raises
  | fixPack => exact opFixPack_raises
  | fixUnpack => exact opFixUnpack_raises
  | curSet => exact opCurSet_raises
  | pixClean => exact opPixClean_raises
  | pixQuant => exact opPixQuant_raises
  | pixPack8 => exact opPixPack8_raises
  | clsCount => exact opClsCount_raises
  | clsFmt => exact opClsFmt_raises
  | genMono => exact opGenMono_raises
  | genVal => exact opGenVal_raises
  | genUnscr => exact opGenUnscr_raises
  | rleBin => exact opRleBin_raises
  | rleMv => exact opRleMv_raises
  | rlxBin => exact opRlxBin_raises
  | rlxMv => exact opRlxMv_raises
  | cntSearch => exact opCntSearch_raises
  | cntAsm => exact opCntAsm_raises
  | encodeImage => exact absurd hi (by decide)
  | cntParse => exact opCntParse_raises
  | pixRescr => exact opPixRescr_raises
  | palExpand => exact opPalExpand_raises
  | pixCrop => exact opPixCrop_raises
  | decodeImage => exact absurd hi (by decide)

end Table

end Sys2Proof.Machine
end

section
/-! SUPPORT. The composites raise what a step of theirs raises; what a command and a move of the host can do to `FAULT`
and `FOP` (60_exceptions.md R301, R304, R305). -/

namespace Sys2Proof.Machine

section Composites

variable {s : State} {i : Instr} {is : List Instr}

/-- Operations one after the other raise what the table lists for them. -/
theorem runBodies_raises_listed (hbasic : ∀ j ∈ is, isBasic j) (hlisted : ∀ x, ∀ j ∈ is, Listed j x → Listed i x)
    (s : State) : Raises (Listed i) (runBodies is s) :=
  runBodies_raises (fun j hj t => (opBody_raises_of_basic (hbasic j hj) t).mono fun x => hlisted x j hj) s

theorem encodeFront_raises : Raises (Listed .encodeImage) (encodeFront s) := by
  rw [encodeFront_eq_runBodies]
  exact runBodies_raises_listed (by decide) (fun x => by cases x <;> decide) s

theorem encodeBack_raises (fmt : BitVec 8) : Raises (Listed .encodeImage) (encodeBack fmt s) := by
  rw [encodeBack_eq_runBodies, encodeBackSteps_eq]
  split <;> exact runBodies_raises_listed (by decide) (fun x => by cases x <;> decide) s

/-- `ENCODE` raises what a step of its expansion raises (R240). -/
theorem opEncodeImage_raises : Raises (Listed .encodeImage) (opEncodeImage s) := by
  unfold opEncodeImage
  exact .read fun _ _ => .read fun _ _ => .read fun _ _ => .read fun _ _ => .require fun _ => .require fun _ =>
    .bind encodeFront_raises fun _ _ => .read fun fmt _ => encodeBack_raises fmt

theorem decodeSteps_raises (cfg : Config) (fmt : BitVec 8) (us : BitVec 1) :
    Raises (Listed .decodeImage) (runBodies (decodeSteps cfg fmt us) s) := by
  unfold decodeSteps
  repeat' split
  all_goals exact runBodies_raises_listed (by decide) (fun x => by cases x <;> decide) s

/-- `DECODE` raises what a step of its expansion raises, and `UnscreenUnsupported` (R268). -/
theorem opDecodeImage_raises : Raises (Listed .decodeImage) (opDecodeImage s) := by
  cases hparse : opCntParse s with
  | error x =>
    have hlisted : Listed .cntParse x → Listed .decodeImage x := by cases x <;> decide
    rw [opDecodeImage, hparse, error_bind]
    exact .error (hlisted (opCntParse_raises x hparse))
  | ok p =>
    by_cases hoff : unscreenOff s p
    · rw [opDecodeImage_of_unscreenOff hparse hoff]
      exact .error (by decide)
    · rw [opDecodeImage_of_parsed hparse hoff]
      exact .bind (opSeqUnpack_raises.mono fun x => by cases x <;> decide) fun u _ => decodeSteps_raises _ _ _

/-- Every operation raises only faults that the table lists for it (R301). -/
theorem opBody_raises (i : Instr) (s : State) : Raises (Listed i) (opBody i s) := by
  cases i with
  | sysReset => exact .ok (resetBlock s)
  | encodeImage => exact opEncodeImage_raises
  | decodeImage => exact opDecodeImage_raises
  | _ => exact opBody_raises_of_basic (by decide) s

end Composites

section Record

variable {s t : State} {i : Instr} {m : HostMove}

theorem FaultCode.mem_all (x : FaultCode) : x ∈ FaultCode.all := by
  cases x <;> decide

theorem mayRaise_encode {x : FaultCode} : mayRaise x (encode i) = true ↔ Listed i x := by
  rw [mayRaise, decode_encode, decide_eq_true_iff]

theorem mayRaise_illegalCommand {b : Byte} {e : DecodeError} (h : decode b = .error e) :
    mayRaise .illegalCommand b = true := by
  rw [mayRaise, h]
  rfl

/-- A fault that its command can raise is a legal record. -/
theorem faultRecordOk_takeFault {x : FaultCode} {op : Byte} (h : mayRaise x op = true) (s : State) :
    faultRecordOk (takeFault x op s) = true := by
  rw [faultRecordOk, Bool.or_eq_true, List.any_eq_true]
  refine .inr ⟨x, x.mem_all, ?_⟩
  rw [Bool.and_eq_true, decide_eq_true_iff]
  exact ⟨rfl, h⟩

/-- The record depends on `FAULT` and `FOP` only. -/
theorem faultRecordOk_congr (hfault : t.fault = s.fault) (hfop : t.fop = s.fop) :
    faultRecordOk t = faultRecordOk s := by
  rw [faultRecordOk, faultRecordOk, hfault, hfop]

/-- Everything that can become of `FAULT` and `FOP`: they are kept, a fault is taken where none was recorded, or the
block is reset by `SYS.RESET` or by the reset event. -/
inductive Recorded (m : HostMove) (s : State) : State → Prop where
  | kept {t : State} (hfault : t.fault = s.fault) (hfop : t.fop = s.fop) : Recorded m s t
  | taken {x : FaultCode} {op : Byte} (hnone : s.fault = 0) (hraise : mayRaise x op = true) :
    Recorded m s (takeFault x op s)
  | reset (hm : m = .cmd 0x01 ∨ m = .resetEvent) : Recorded m s (resetBlock s)

/-- Everything a command but `SYS.RESET` can do to the record. -/
theorem exec_recorded (hi : i ≠ .sysReset) (h : exec i s = .next t) : Recorded m s t := by
  rw [exec_eq_runOp hi, runOp_eq_next] at h
  rcases h with ⟨-, rfl⟩ | ⟨-, hok⟩ | ⟨hnone, x, herror, rfl⟩
  · exact .kept rfl rfl
  · obtain ⟨ws, -, rfl⟩ := opBody_eq_ok hi hok
    obtain ⟨-, hfault, hfop, -⟩ := applyWrites_frame ws s
    exact .kept hfault hfop
  · exact .taken hnone (mayRaise_encode.mpr (opBody_raises i s x herror))

theorem writeCmd_recorded {b : Byte} (h : writeCmd b s = .next t) : Recorded (.cmd b) s t := by
  cases hd : decode b with
  | ok i =>
    rw [writeCmd_of_decode hd] at h
    by_cases hi : i = .sysReset
    · subst hi
      cases h
      obtain rfl : encode .sysReset = b := encode_of_decode_eq_ok hd
      exact .reset (.inl rfl)
    · exact exec_recorded hi h
  | error e =>
    rw [writeCmd_of_illegal hd, illegalCommand] at h
    by_cases hs : s.fault = 0
    · rw [if_neg (not_not.mpr hs)] at h
      cases h
      exact .taken hs (mayRaise_illegalCommand hd)
    · rw [if_pos hs] at h
      cases h
      exact .kept rfl rfl

/-- A write of the host keeps the record. -/
theorem Write.apply_recorded (w : Write) : Recorded m s (w.apply s) := by
  obtain ⟨-, hfault, hfop, -⟩ := w.apply_frame s
  exact .kept hfault hfop

/-- Everything a move of the host or of the platform can do to the record. -/
theorem makeMove_recorded (h : makeMove m s = .next t) : Recorded m s t := by
  cases m with
  | cmd b => exact writeCmd_recorded h
  | set x =>
    obtain ⟨rfl, -⟩ := hostSet_eq_next h
    exact (Write.reg x).apply_recorded
  | load x =>
    cases h
    exact (Write.buf x).apply_recorded
  | poke x =>
    obtain ⟨y, rfl⟩ := hostPoke_eq_next h
    exact (Write.buf y).apply_recorded
  | read x =>
    obtain ⟨rfl, -⟩ := makeMove_read.mp h
    exact .kept rfl rfl
  | resetEvent =>
    cases h
    exact .reset (.inr rfl)

theorem Recorded.faultRecordOk (h : Recorded m s t) (hs : faultRecordOk s = true) : faultRecordOk t = true := by
  cases h with
  | kept hfault hfop => rwa [faultRecordOk_congr hfault hfop]
  | taken _ hraise => exact faultRecordOk_takeFault hraise s
  | reset _ => rfl

/-- A recorded fault is kept by every move but a reset (R305). -/
theorem Recorded.sticky (h : Recorded m s t) (hs : s.fault ≠ 0) :
    (t.fault = s.fault ∧ t.fop = s.fop) ∨ m = .cmd 0x01 ∨ m = .resetEvent := by
  cases h with
  | kept hfault hfop => exact .inl ⟨hfault, hfop⟩
  | taken hnone _ => exact absurd hnone hs
  | reset hm => exact .inr hm

end Record

section Access

variable {s : State}

/-- The state with no fault recorded. -/
def State.clearFault (s : State) : State := { s with fault := 0, fop := 0 }

/-- An outcome with the next state, where there is one, seen through `g`. -/
def onNext (g : State → State) (o : Host.Outcome State Fault Refusal) : Host.Outcome State Fault Refusal :=
  match o with
  | .next t => .next (g t)
  | .fault r => .fault r
  | .refused r => .refused r

theorem onNext_eq_refused {g : State → State} {o : Host.Outcome State Fault Refusal} {r : Refusal} :
    onNext g o = .refused r ↔ o = .refused r := by
  cases o <;> simp [onNext]

theorem hostSet_clearFault (x : RegWrite) (s : State) :
    hostSet x s.clearFault = onNext State.clearFault (hostSet x s) := by
  cases x with
  | v x =>
    have hcfg : s.clearFault.cfg = s.cfg := rfl
    simp only [hostSet, hcfg]
    split <;> rfl
  | _ => rfl

theorem pokeSlot_clearFault {α : Type} {b : Slot (List α)} {i : Nat} {x : α} {put put' : List α → State}
    (h : ∀ xs, put' xs = (put xs).clearFault) : pokeSlot b i x put' = onNext State.clearFault (pokeSlot b i x put) := by
  unfold pokeSlot
  by_cases hv : b.valid = false
  · rw [if_pos hv, if_pos hv]
    rfl
  · rw [if_neg hv, if_neg hv]
    split
    · exact congrArg _ (h _)
    · rfl

theorem hostPoke_clearFault (x : ElemWrite) (s : State) :
    hostPoke x s.clearFault = onNext State.clearFault (hostPoke x s) := by
  cases x <;> exact pokeSlot_clearFault fun _ => rfl

/-- Whether a read answers does not depend on the record. -/
theorem makeMove_read_clearFault (x : HostRead) (s : State) :
    makeMove (.read x) s.clearFault = onNext State.clearFault (makeMove (.read x) s) := by
  cases x with
  | reg r =>
    have hread : hostReadReg r s.clearFault = hostReadReg r s := by cases r <;> rfl
    simp only [makeMove, hostRead, hread]
    cases hostReadReg r s <;> rfl
  | buf b =>
    have hread : hostReadBuf b s.clearFault = hostReadBuf b s := by cases b <;> rfl
    simp only [makeMove, hostRead, hread]
    cases hostReadBuf b s <;> rfl
  | elem b i =>
    have hread : hostReadElem b i s.clearFault = hostReadElem b i s := by cases b <;> rfl
    simp only [makeMove, hostRead, hread]
    cases hostReadElem b i s <;> rfl
  | _ => rfl

/-- A host access but a write of `CMD` does the same whatever is recorded (R305). -/
theorem makeMove_clearFault {m : HostMove} (hcmd : ∀ b, m ≠ .cmd b) (hreset : m ≠ .resetEvent) (s : State) :
    makeMove m s.clearFault = onNext State.clearFault (makeMove m s) := by
  cases m with
  | cmd b => exact absurd rfl (hcmd b)
  | set x => exact hostSet_clearFault x s
  | load x => cases x <;> rfl
  | poke x => exact hostPoke_clearFault x s
  | read x => exact makeMove_read_clearFault x s
  | resetEvent => exact absurd rfl hreset

/-- While a fault is recorded a write of `CMD` with any byte but that of `SYS.RESET` does nothing (R305). -/
theorem writeCmd_of_faulted {b : Byte} (hb : b ≠ 0x01) (hs : s.fault ≠ 0) : writeCmd b s = .next s := by
  cases hd : decode b with
  | ok i =>
    have hi : i ≠ .sysReset := by
      rintro rfl
      exact hb (encode_of_decode_eq_ok hd).symm
    rw [writeCmd_of_decode hd, exec_of_faulted hi hs]
  | error e => rw [writeCmd_of_illegal hd, illegalCommand, if_pos hs]

end Access

end Sys2Proof.Machine
end

section
/-! SUPPORT. The faults of `DECODE` on a value in `BUF`: what `CNT.PARSE` accepts and what each step leaves meets every
test of the later steps but those for a malformed container and a value too wide (44_decoder_pipeline.md R268, R269). -/

namespace Sys2Proof.Machine

section Positive

variable {n : Nat}

theorem le_foldl_groups (n : Nat) (gs : List Nat) (v : Nat) : v ≤ gs.foldl (fun v g => v * 2 ^ n + g) v := by
  induction gs generalizing v with
  | nil => exact le_rfl
  | cons g gs ih =>
    have hstep : v ≤ v * 2 ^ n + g := Nat.le_add_right_of_le (Nat.le_mul_of_pos_right v (Nat.two_pow_pos n))
    exact hstep.trans (ih _)

/-- A value whose first group is not zero is positive. -/
theorem groupsValue_cons_pos {g : Nat} (hg : g ≠ 0) (gs : List Nat) : 1 ≤ groupsValue n (g :: gs) := by
  rw [groupsValue, List.foldl_cons, Nat.zero_mul, Nat.zero_add]
  exact (Nat.one_le_iff_ne_zero.mpr hg).trans (le_foldl_groups n gs g)

/-- No code is read as 0 (40_vwi_codec_and_chunker.md R140). -/
theorem scanFrom_value_pos {zc v used : Nat} {gs rest : List Nat} (h : scanFrom n zc gs = .value v used rest) :
    1 ≤ v := by
  induction gs generalizing zc with
  | nil => cases h
  | cons g gs ih =>
    by_cases hg : g = 0
    · rw [scanFrom, if_pos hg] at h
      exact ih h
    · rw [scanFrom, if_neg hg] at h
      split at h
      · cases h
      · obtain ⟨rfl, -, -⟩ := Scan.value.inj h
        exact groupsValue_cons_pos hg _

theorem scanAll_pos {fuel : Nat} {gs r : List Nat} (h : scanAll n fuel gs = some r) : ∀ v ∈ r, 1 ≤ v := by
  induction fuel generalizing gs r with
  | zero =>
    cases h
    exact fun _ hv => absurd hv List.not_mem_nil
  | succ fuel ih =>
    rw [scanAll] at h
    split at h
    next v used rest hscan =>
      obtain ⟨vs, hvs, rfl⟩ := Option.map_eq_some_iff.mp h
      exact List.forall_mem_cons.mpr ⟨scanFrom_value_pos hscan, ih hvs⟩
    · cases h
      exact fun _ hv => absurd hv List.not_mem_nil
    · cases h

/-- The integers of a window are positive (40_vwi_codec_and_chunker.md R141). -/
theorem unpackSeq_pos {B : List Byte} {S E : Nat} {r : List Nat} (h : unpackSeq B S E n = some r) : ∀ v ∈ r, 1 ≤ v :=
  scanAll_pos h

end Positive

/-- The faults that `DECODE` can take on a value in `BUF`, under the parameters `cfg`. -/
def DecodeFault (cfg : Config) (x : FaultCode) : Prop :=
  x = .malformedContainer ∨ x = .containerTooLarge ∨ x = .zeroArea ∨ (x = .unscreenUnsupported ∧ cfg.unscreen = .off) ∨
    (x = .valueTooWide ∧ cfg.vbits ≠ none)

/-- What `CNT.PARSE` leaves of the container `buf` that it accepts, as the later steps of `DECODE` test it. -/
structure Accepted (p : State) (buf : List Byte) (w h : BitVec 8) (f : Nat) (pb : List Byte) : Prop where
  buf_eq : p.mem.buf = .put buf
  area : 1 ≤ w.toNat ∧ 1 ≤ h.toNat
  format : f ≤ 4
  palette : paletteFits f pb.length
  shaped : Shaped p w h f pb
  us_eq : ∃ us, p.regs.us = .put us
  runs : ∃ rb re n, p.regs.rb = .put rb ∧ p.regs.re = .put re ∧ p.regs.n = .put n ∧ isChunkWidth n.toNat ∧
    windowOk buf rb re
  values : ∃ f4 f6, p.regs.f4 = .put f4 ∧ p.regs.f6 = .put f6 ∧ windowOk buf (f4.setWidth 17) (f6.setWidth 17)
  width : 1 ≤ f → ∃ vn, p.regs.vn = .put vn ∧ isChunkWidth vn.toNat

/-- The stream that the steps between the runs and the expander leave: it fills the padded grid, with bits in
format 0. -/
structure Streamed (r : State) (w h : BitVec 8) (f : Nat) (pb : List Byte) : Prop where
  shaped : Shaped r w h f pb
  stream : ∃ str, r.mem.str = .put str ∧ str.length = paddedWidth f w.toNat * h.toNat ∧
    (f = 0 → ∀ x ∈ str, x = 0 ∨ x = 1)

variable {s p q r t : State} {buf pb : List Byte} {w h : BitVec 8} {f : Nat} {pw : BitVec 9} {run : List Nat}

theorem memRead2_le (B : List Byte) (a : Nat) : memRead2 B a ≤ 65535 := by
  have hlow := (B.getD a 0).isLt
  have hhigh := (B.getD (a + 1) 0).isLt
  unfold memRead2 memRead1
  omega

theorem fitsVBits_of_infinite {cfg : Config} (h : cfg.vbits = none) (v : Nat) : fitsVBits cfg v = true := by
  rw [fitsVBits, h]

/-- The padded width that `PW` holds is at least the width (R178). -/
theorem le_toNat_pw (hf : f ≤ 4) (w : BitVec 8) : w.toNat ≤ (BitVec.ofNat 9 (paddedWidth f w.toNat)).toNat := by
  have hw := w.isLt
  obtain ⟨hle, -⟩ := paddedWidth_bounds (w := w.toNat) hf (by omega)
  rwa [toNat_pw hf]

/-- A step that writes none of the header's registers nor the palette. -/
theorem Shaped.kept (hs : Shaped p w h f pb) (hw : q.regs.w = p.regs.w := by rfl) (hh : q.regs.h = p.regs.h := by rfl)
    (hfmt : q.regs.fmt = p.regs.fmt := by rfl) (hpw : q.regs.pw = p.regs.pw := by rfl)
    (hpal : q.mem.pal = p.mem.pal := by rfl) : Shaped q w h f pb :=
  ⟨hw.trans hs.w_eq, hh.trans hs.h_eq, hfmt.trans hs.fmt_eq, hpw.trans hs.pw_eq, hpal.trans hs.pal_eq⟩

section Parse

theorem opCntParse_raises_decodeFault (hbuf : s.mem.buf = .put buf) : Raises (DecodeFault s.cfg) (opCntParse s) := by
  rw [opCntParse_of_buf hbuf]
  refine .require (fun _ => ?_) fun _ => .inl rfl
  refine .require (fun _ => ?_) fun _ => .inr (.inl rfl)
  refine .require (fun _ => ?_) fun _ => .inl rfl
  exact .require (fun _ => .ok _) fun _ => .inr (.inr (.inl rfl))

/-- The chunk width of a header in the register `N` (R261). -/
theorem toNat_headerWidth (cs : Nat) : (BitVec.ofNat 7 (cs % 128)).toNat = cs % 128 :=
  Nat.mod_eq_of_lt (Nat.mod_lt cs (by decide))

theorem isChunkWidth_valueRegister (h1 : 1 ≤ f) (hf : f ≤ 4) :
    isChunkWidth (BitVec.ofNat 4 (valueWidth f)).toNat := by
  interval_cases f <;> decide

/-- What `CNT.PARSE` accepts meets the tests of the steps that follow, as far as the header decides it (R261, R262). -/
theorem exists_accepted (hparse : opCntParse s = .ok p) : ∃ buf w h f pb, Accepted p buf w h f pb := by
  obtain ⟨buf, hbuf, -, -, hf, hn, hoffsets, -, -, hpal, harea, rfl⟩ := opCntParse_eq_ok.mp hparse
  obtain ⟨h8, h46, h6⟩ := hoffsets
  have h4max := memRead2_le buf 4
  have h6max := memRead2_le buf 6
  refine ⟨buf, buf.getD 0 0, buf.getD 1 0, memRead1 buf 3, buf.drop (memRead2 buf 6), ?_⟩
  rw [parsed_eq hf]
  refine ⟨hbuf, harea, hf, ?_, ⟨rfl, rfl, ?_, rfl, rfl⟩, ⟨_, rfl⟩, ⟨_, _, _, rfl, rfl, rfl, ?_, ?_⟩,
    ⟨_, _, rfl, rfl, ?_⟩, fun h1 => ⟨BitVec.ofNat 4 (valueWidth (memRead1 buf 3)), ?_, isChunkWidth_valueRegister h1 hf⟩⟩
  · rwa [List.length_drop]
  · exact congrArg Slot.put (toByte_toNat (buf.getD 3 0)).symm
  · rwa [toNat_headerWidth]
  · rw [windowOk, toNat_window h4max]
    exact ⟨h8, h46.trans h6⟩
  · rw [windowOk, toNat_setWidth_offset h4max, toNat_setWidth_offset h6max]
    exact ⟨h46, h6⟩
  · rw [valueWidth_eq_getD h1 hf]
    exact if_neg (Nat.ne_zero_of_lt h1)

end Parse

section Runs

theorem opSeqUnpack_raises_decodeFault (ha : Accepted p buf w h f pb) : Raises (DecodeFault p.cfg) (opSeqUnpack p) := by
  obtain ⟨rb, re, n, hrb, hre, hn, hwidth, hwindow⟩ := ha.runs
  simp only [opSeqUnpack, ha.buf_eq, hrb, hre, hn, Slot.read_put, ok_bind, require_pos hwidth, require_pos hwindow]
  cases unpackSeq buf rb.toNat re.toNat n.toNat with
  | none => exact .error (.inl rfl)
  | some run =>
    refine .require (fun _ => .ok _) fun hwide => .inr (.inr (.inr (.inr ⟨rfl, fun hnone => hwide ?_⟩)))
    exact fun v _ => fitsVBits_of_infinite hnone v

/-- `SEQ.UNPACK` leaves what `CNT.PARSE` left, and positive runs. -/
theorem Accepted.unpacked (ha : Accepted p buf w h f pb) (hunpack : opSeqUnpack p = .ok q) :
    Accepted q buf w h f pb ∧ ∃ run, q.mem.run = .put run ∧ ∀ v ∈ run, 1 ≤ v := by
  obtain ⟨_, _, _, _, run, -, -, -, -, -, -, hrun, -, rfl⟩ := opSeqUnpack_eq_ok.mp hunpack
  exact ⟨⟨ha.buf_eq, ha.area, ha.format, ha.palette, ha.shaped.kept, ha.us_eq, ha.runs, ha.values, ha.width⟩, run, rfl,
    unpackSeq_pos hrun⟩

end Runs

section Expand

theorem Accepted.grid_area (ha : Accepted p buf w h f pb) :
    1 ≤ (BitVec.ofNat 9 (paddedWidth f w.toNat)).toNat ∧ 1 ≤ h.toNat :=
  ⟨ha.area.1.trans (le_toNat_pw ha.format w), ha.area.2⟩

theorem opRlxBin_raises_malformed (hrun : s.mem.run = .put run) (hpw : s.regs.pw = .put pw) (hh : s.regs.h = .put h)
    (harea : 1 ≤ pw.toNat ∧ 1 ≤ h.toNat) (hpos : ∀ v ∈ run, 1 ≤ v) :
    Raises (· = .malformedContainer) (opRlxBin s) := by
  simp only [opRlxBin, hrun, hpw, hh, Slot.read_put, ok_bind, require_pos harea, require_pos hpos]
  exact .require (fun _ => .ok _) fun _ => rfl

theorem opRlxMv_raises_malformed {vals : List Byte} (hrun : s.mem.run = .put run) (hvals : s.mem.vals = .put vals)
    (hpw : s.regs.pw = .put pw) (hh : s.regs.h = .put h) (harea : 1 ≤ pw.toNat ∧ 1 ≤ h.toNat)
    (hpos : ∀ v ∈ run, 1 ≤ v) : Raises (· = .malformedContainer) (opRlxMv s) := by
  simp only [opRlxMv, hrun, hvals, hpw, hh, Slot.read_put, ok_bind, require_pos harea, require_pos hpos]
  exact .require (fun _ => .require (fun _ => .ok _) fun _ => rfl) fun _ => rfl

/-- `RLX.BIN` fills the grid with bits (42_run_length.md R216). -/
theorem opRlxBin_bits (ht : opRlxBin s = .ok t) (hpw : s.regs.pw = .put pw) (hh : s.regs.h = .put h) :
    ∃ str, t = s.setStr str ∧ str.length = pw.toNat * h.toNat ∧ ∀ x ∈ str, x = 0 ∨ x = 1 := by
  obtain ⟨run, pw', h', -, hpw', hh', -, -, hsum, rfl⟩ := opRlxBin_eq_ok.mp ht
  obtain rfl : pw = pw' := congrArg Slot.val (hpw.symm.trans hpw')
  obtain rfl : h = h' := congrArg Slot.val (hh.symm.trans hh')
  refine ⟨_, rfl, ?_, ?_⟩ <;> rw [expandBinary_eq_alternating]
  · exact length_drop_alternating hsum
  · exact fun _ => mem_drop_alternating

/-- `RLX.MV` fills the grid (42_run_length.md R217). -/
theorem opRlxMv_length (ht : opRlxMv s = .ok t) (hpw : s.regs.pw = .put pw) (hh : s.regs.h = .put h) :
    ∃ str, t = s.setStr str ∧ str.length = pw.toNat * h.toNat := by
  obtain ⟨run, vals, pw', h', -, -, hpw', hh', -, -, hcount, hsum, rfl⟩ := opRlxMv_eq_ok.mp ht
  obtain rfl : pw = pw' := congrArg Slot.val (hpw.symm.trans hpw')
  obtain rfl : h = h' := congrArg Slot.val (hh.symm.trans hh')
  refine ⟨_, rfl, ?_⟩
  rw [expandMulti_eq_runStream, runStream_length hcount, hsum]

theorem decodeMono_raises_malformed (ha : Accepted q buf w h f pb) (hrun : q.mem.run = .put run)
    (hpos : ∀ v ∈ run, 1 ≤ v) : Raises (· = .malformedContainer) (decodeMono q) := by
  obtain ⟨us, hus⟩ := ha.us_eq
  have hpw := ha.shaped.pw_eq
  have hh := ha.shaped.h_eq
  simp only [decodeMono, hus, Slot.read_put, ok_bind]
  refine .bind (opRlxBin_raises_malformed hrun hpw hh ha.grid_area hpos) fun t ht => ?_
  split
  · obtain ⟨str, rfl, hlen, hbits⟩ := opRlxBin_bits ht hpw hh
    rw [(opPixRescr_eq_ok (s := q.setStr str)).mpr ⟨str, _, h, rfl, hpw, hh, ha.grid_area, hlen, hbits, rfl⟩]
    exact .ok _
  · exact .ok t

theorem decodeMono_streamed (ha : Accepted q buf w h f pb) (hr : decodeMono q = .ok r) : Streamed r w h f pb := by
  obtain ⟨us, t, -, ht, hrest⟩ := decodeMono_eq_ok.mp hr
  obtain ⟨str, rfl, hlen, hbits⟩ := opRlxBin_bits ht ha.shaped.pw_eq ha.shaped.h_eq
  rw [toNat_pw ha.format] at hlen
  rcases hrest with ⟨-, hrescr⟩ | ⟨-, rfl⟩
  · obtain ⟨str', pw', -, hstr', -, -, -, -, -, rfl⟩ := opPixRescr_eq_ok.mp hrescr
    obtain rfl : str = str' := congrArg Slot.val hstr'
    exact ⟨ha.shaped.kept, _, rfl, (rescreen_length _ str).trans hlen, fun _ => mem_rescreen hbits⟩
  · exact ⟨ha.shaped.kept, str, rfl, hlen, fun _ => hbits⟩

theorem decodeValues_raises_malformed (ha : Accepted q buf w h f pb) (h1 : 1 ≤ f) (hrun : q.mem.run = .put run)
    (hpos : ∀ v ∈ run, 1 ≤ v) : Raises (· = .malformedContainer) (decodeValues q) := by
  obtain ⟨f4, f6, hf4, hf6, hwindow⟩ := ha.values
  obtain ⟨vn, hvn, hwidth⟩ := ha.width h1
  have hbuf := ha.buf_eq
  simp only [decodeValues, hf4, hf6, Slot.read_put, ok_bind]
  refine .bind ?_ fun t ht => ?_
  · simp only [opFixUnpack, State.setRe_mem, State.setRb_mem, State.setRe_regs, State.setRb_regs, hbuf, hvn, hrun,
      Slot.read_put, ok_bind, require_pos hwidth, require_pos hwindow]
    exact .require (fun _ => .ok _) fun _ => rfl
  · obtain ⟨_, _, _, _, _, -, -, -, -, -, -, -, -, rfl⟩ := opFixUnpack_eq_ok.mp ht
    exact opRlxMv_raises_malformed hrun rfl ha.shaped.pw_eq ha.shaped.h_eq ha.grid_area hpos

theorem decodeValues_streamed (ha : Accepted q buf w h f pb) (h1 : 1 ≤ f) (hr : decodeValues q = .ok r) :
    Streamed r w h f pb := by
  obtain ⟨f4, f6, t, -, -, ht, hrlx⟩ := decodeValues_eq_ok.mp hr
  obtain ⟨_, _, _, _, _, -, -, -, -, -, -, -, -, rfl⟩ := opFixUnpack_eq_ok.mp ht
  obtain ⟨str, rfl, hlen⟩ := opRlxMv_length hrlx ha.shaped.pw_eq ha.shaped.h_eq
  rw [toNat_pw ha.format] at hlen
  exact ⟨ha.shaped.kept, str, rfl, hlen, fun h0 => absurd h0 (Nat.ne_zero_of_lt h1)⟩

theorem decodeStream_raises_malformed (ha : Accepted q buf w h f pb) (hrun : q.mem.run = .put run)
    (hpos : ∀ v ∈ run, 1 ≤ v) : Raises (· = .malformedContainer) (decodeStream (BitVec.ofNat 8 f) q) := by
  unfold decodeStream
  by_cases h0 : f = 0
  · rw [if_pos ((fmt_eq_zero_iff ha.format).mpr h0)]
    exact decodeMono_raises_malformed ha hrun hpos
  · rw [if_neg ((fmt_eq_zero_iff ha.format).not.mpr h0)]
    exact decodeValues_raises_malformed ha (Nat.one_le_iff_ne_zero.mpr h0) hrun hpos

theorem decodeStream_streamed (ha : Accepted q buf w h f pb) (hr : decodeStream (BitVec.ofNat 8 f) q = .ok r) :
    Streamed r w h f pb := by
  unfold decodeStream at hr
  by_cases h0 : f = 0
  · rw [if_pos ((fmt_eq_zero_iff ha.format).mpr h0)] at hr
    exact decodeMono_streamed ha hr
  · rw [if_neg ((fmt_eq_zero_iff ha.format).not.mpr h0)] at hr
    exact decodeValues_streamed ha (Nat.one_le_iff_ne_zero.mpr h0) hr

end Expand

section Show

/-- `PAL.EXPAND` on a stream that fills the grid finds nothing wrong but an index beyond the palette (R266). -/
theorem opPalExpand_raises_malformed (hs : Streamed r w h f pb) (hf : f ≤ 4) (harea : 1 ≤ w.toNat ∧ 1 ≤ h.toNat)
    (hpal : paletteFits f pb.length) : Raises (· = .malformedContainer) (opPalExpand r) := by
  obtain ⟨str, hstr, hlen, hbits⟩ := hs.stream
  have hgrid : 1 ≤ paddedWidth f w.toNat ∧ 1 ≤ h.toNat :=
    ⟨harea.1.trans ((le_toNat_pw hf w).trans_eq (toNat_pw hf w)), harea.2⟩
  simp only [opPalExpand, hstr, hs.shaped.fmt_eq, hs.shaped.pw_eq, hs.shaped.h_eq, hs.shaped.pal_eq, Slot.read_put,
    ok_bind, toNat_fmt hf, toNat_pw hf, fmt_eq_zero_iff hf, require_pos hgrid, require_pos (And.intro hf hlen),
    require_pos hbits]
  refine .readIf (fun pal hread => ?_) fun _ hvalid => nomatch hvalid
  have hfits : paletteFits f pal.length := by
    intro h2
    obtain ⟨-, hput⟩ := hread.resolve_right fun ⟨hnot, _⟩ => hnot h2
    obtain rfl : pb = pal := congrArg Slot.val hput
    exact hpal h2
  rw [require_pos hfits, ok_bind]
  exact .require (fun _ => .ok _) fun _ => rfl

/-- `PIX.CROP` accepts what `PAL.EXPAND` leaves of such a stream (R267). -/
theorem opPixCrop_completes (hs : Streamed r w h f pb) (hf : f ≤ 4) (harea : 1 ≤ w.toNat ∧ 1 ≤ h.toNat)
    (ht : opPalExpand r = .ok t) : ∃ u, opPixCrop t = .ok u := by
  obtain ⟨str, hstr, hlen, -⟩ := hs.stream
  obtain ⟨str', -, -, -, -, hstr', -, -, -, -, -, -, -, -, -, rfl⟩ := opPalExpand_eq_ok.mp ht
  obtain rfl : str = str' := congrArg Slot.val (hstr.symm.trans hstr')
  have hle := le_toNat_pw hf w
  obtain ⟨hw1, hh1⟩ := harea
  refine ⟨_, opPixCrop_eq_ok.mpr ⟨_, w, h, _, rfl, hs.shaped.w_eq, hs.shaped.h_eq, hs.shaped.pw_eq,
    ⟨hw1, hh1, hw1.trans hle⟩, ⟨hle, ?_⟩, rfl⟩⟩
  rw [List.length_map, hlen, toNat_pw hf]

end Show

/-- The steps of `DECODE` after `SEQ.UNPACK` find nothing wrong but a malformed container. -/
theorem Accepted.rest_raises_malformed (ha : Accepted q buf w h f pb) (hrun : q.mem.run = .put run)
    (hpos : ∀ v ∈ run, 1 ≤ v) : Raises (· = .malformedContainer)
      (decodeStream (BitVec.ofNat 8 f) q >>= fun r => opPalExpand r >>= opPixCrop) := by
  refine .bind (decodeStream_raises_malformed ha hrun hpos) fun r hr => ?_
  have hstreamed := decodeStream_streamed ha hr
  refine .bind (opPalExpand_raises_malformed hstreamed ha.format ha.area ha.palette) fun t ht => ?_
  obtain ⟨u, hu⟩ := opPixCrop_completes hstreamed ha.format ha.area ht
  rw [hu]
  exact .ok u

/-- `DECODE` on a value in `BUF` takes only the faults its rule names (R268, R269). -/
theorem opDecodeImage_raises_decodeFault (hbuf : s.mem.buf = .put buf) :
    Raises (DecodeFault s.cfg) (opDecodeImage s) := by
  unfold opDecodeImage
  refine .bind (opCntParse_raises_decodeFault hbuf) fun p hparse => ?_
  have hcfg := (headerHeld_of_opCntParse hparse).cfg
  obtain ⟨_, w, h, f, pb, ha⟩ := exists_accepted hparse
  obtain ⟨us, hus⟩ := ha.us_eq
  rw [ha.shaped.fmt_eq, hus, Slot.read_put, Slot.read_put, ok_bind, ok_bind, hcfg]
  refine .require (fun _ => .bind (hcfg ▸ opSeqUnpack_raises_decodeFault ha) fun q hunpack => ?_) fun hon => ?_
  · obtain ⟨haq, run, hrun, hpos⟩ := ha.unpacked hunpack
    exact (haq.rest_raises_malformed hrun hpos).mono fun _ => .inl
  · obtain ⟨-, -, hoff⟩ := not_not.mp hon
    exact .inr (.inr (.inr (.inl ⟨rfl, hoff⟩)))

end Sys2Proof.Machine
end

section
/-! PROOFS. The statements about faults and reset (60_exceptions.md). -/

namespace Sys2Proof.Proofs.ExceptionsFamily

open Sys2Proof Sys2Proof.Machine

/-- Settles O1: both resets answer the reset state with the parameters and the pending moves kept. -/
theorem sysResetGivesTheResetState : Obligations.SysResetGivesTheResetState := by
  obtain ⟨hplace, heos, hmany, hfault, hfop⟩ := Proofs.StateFamily.resetStateIsAsTheSpecSays
  refine ⟨fun s => ⟨resetBlock s, exec_sysReset s, fun p => ?_, heos, hmany, hfault, hfop, rfl, rfl, rfl⟩, rfl⟩
  have hreset : (resetBlock s).place p = State.reset.place p := by
    cases p with
    | reg r => exact State.place_reg_congr rfl r
    | buf b => exact State.place_buf_congr rfl b
  rw [hreset, hplace p]

/-- Settles O8: an operation that answers leaves `FAULT`, and one that faults drops every effect. -/
theorem faultsArePrecise : Obligations.FaultsArePrecise := by
  intro i s t hs h ht
  by_cases hi : i = .sysReset
  · subst hi
    cases h
    exact absurd rfl ht
  · rw [exec_eq_runOp hi, runOp_eq_next] at h
    rcases h with ⟨hne, -⟩ | ⟨-, hok⟩ | ⟨-, x, -, rfl⟩
    · exact absurd hs hne
    · exact absurd ((opBody_fault hi hok).trans hs) ht
    · rfl

/-- Settles O12: every move keeps the record, takes a fault that the table lists for its command, or resets. -/
theorem faultRecordStaysLegal : Obligations.FaultRecordStaysLegal := by
  intro s t hs h
  rcases step_eq_next.mp h with ⟨-, rfl⟩ | ⟨m, ms, -, hmove⟩
  · exact hs
  · exact (makeMove_recorded (s := { s with host := ms }) hmove).faultRecordOk hs

/-- Settles O7: a command other than `SYS.RESET` is ignored, a host access does not look at the record, and only a reset
clears it. -/
theorem faultsAreSticky : Obligations.FaultsAreSticky := by
  refine ⟨fun s b ms hs hhost hb => ?_, fun s m ms hs hhost hcmd hreset => ?_, fun s t hs h => ?_⟩
  · rw [step_move hhost]
    exact writeCmd_of_faulted (s := { s with host := ms }) hb hs
  · have hclear : step { s with fault := 0, fop := 0 } = onNext State.clearFault (step s) := by
      rw [step_move hhost, step_move (s := { s with fault := 0, fop := 0 }) hhost]
      exact makeMove_clearFault hcmd hreset { s with host := ms }
    rw [hclear]
    refine ⟨fun r => onNext_eq_refused.symm, fun t h => ?_⟩
    rw [h]
    rw [step_move hhost] at h
    obtain ⟨hfault, hfop⟩ := ((makeMove_recorded h).sticky hs).resolve_right (not_or.mpr ⟨hcmd 0x01, hreset⟩)
    exact ⟨hfault, hfop, rfl⟩
  · rcases step_eq_next.mp h with ⟨-, rfl⟩ | ⟨m, ms, hhost, hmove⟩
    · exact .inl ⟨rfl, rfl⟩
    · refine ((makeMove_recorded hmove).sticky hs).imp_right fun hm => ⟨ms, ?_⟩
      rw [hhost]
      exact hm.imp (congrArg (· :: ms)) (congrArg (· :: ms))

/-- Settles O59: a container that `CNT.PARSE` accepts and the policy allows leaves the later steps only a malformed
region or a value too wide to find; no step writes `BUF`. -/
theorem decodeImageFaultsOnlyAsStated : Obligations.DecodeImageFaultsOnlyAsStated := by
  refine ⟨fun s hs hinvalid => exec_of_operand_invalid hs (by simpa [readSet, State.place, Slot.map] using hinvalid),
    fun s buf hs hbuf => ?_⟩
  have hne : Instr.decodeImage ≠ .sysReset := by decide
  obtain ⟨t, ht⟩ := exec_completes .decodeImage s
  obtain ⟨hframe, -⟩ := Proofs.StateFamily.nothingOutsideTheWriteSetIsWritten .decodeImage s t hne ht
  have hkept : t.mem.buf = s.mem.buf :=
    Slot.map_injective HostValue.bytes_injective (hframe (.buf .buf) (by decide))
  refine ⟨t, ht, hkept, ?_⟩
  rw [exec_eq_runOp hne, runOp_eq_next] at ht
  rcases ht with ⟨hfaulted, -⟩ | ⟨-, hok⟩ | ⟨-, x, herror, rfl⟩
  · exact absurd hs hfaulted
  · exact .inl ((opBody_fault hne hok).trans hs)
  · rcases opDecodeImage_raises_decodeFault hbuf x herror with rfl | rfl | rfl | ⟨rfl, hoff⟩ | ⟨rfl, hfinite⟩
    · exact .inr (.inl rfl)
    · exact .inr (.inr (.inl rfl))
    · exact .inr (.inr (.inr (.inl rfl)))
    · exact .inr (.inr (.inr (.inr (.inl ⟨rfl, hoff⟩))))
    · exact .inr (.inr (.inr (.inr (.inr ⟨rfl, hfinite⟩))))

end Sys2Proof.Proofs.ExceptionsFamily
end

section
/-! SUPPORT. The host's accesses seen through the places they name: what a write leaves elsewhere, a write of one element
as a write of the whole buffer, and what a read answers (70_reset_and_hazards.md R360). -/

namespace Sys2Proof.Machine

variable {s : State} {ms : List HostMove}

/-- The pending moves are in no place. -/
theorem State.place_withHost (s : State) (ms : List HostMove) (p : Place) :
    State.place { s with host := ms } p = s.place p := by
  cases p with
  | reg r => exact State.place_reg_congr rfl r
  | buf b => exact State.place_buf_congr rfl b

section Elsewhere

/-- The place that a write names holds its value. -/
theorem Write.place_apply_self {w : Write} {p : Place} (hw : w.loc = .place p) (s : State) :
    (w.apply s).place p = .put w.value :=
  (w.loc_apply s (.place p)).trans (if_pos hw.symm)

/-- A write of the host leaves all but the place it names and the list of pending moves (R22, R360). -/
theorem Write.apply_elsewhere {w : Write} {p : Place} (hw : w.loc = .place p) (s : State) (ms : List HostMove) :
    (∀ q, q ≠ p → (w.apply { s with host := ms }).place q = s.place q) ∧
      (w.apply { s with host := ms }).eos = s.eos ∧ (w.apply { s with host := ms }).tooMany = s.tooMany ∧
      (w.apply { s with host := ms }).fault = s.fault ∧ (w.apply { s with host := ms }).fop = s.fop ∧
      (w.apply { s with host := ms }).cfg = s.cfg ∧ (w.apply { s with host := ms }).host = ms := by
  have hkept : ∀ l, l ≠ .place p → (w.apply { s with host := ms }).loc l = State.loc { s with host := ms } l :=
    fun l hl => (w.loc_apply _ l).trans (if_neg (hw ▸ hl))
  obtain ⟨hcfg, hfault, hfop, hhost⟩ := w.apply_frame { s with host := ms }
  refine ⟨fun q hq => ?_, State.eos_eq_of_loc (hkept .eos nofun), State.tooMany_eq_of_loc (hkept .tooMany nofun),
    hfault, hfop, hcfg, hhost⟩
  exact (hkept (.place q) (mt Loc.place.inj hq)).trans (s.place_withHost ms q)

end Elsewhere

section RegisterWrite

/-- A host write of a register stores the value, where the value is one of the register (R21, R360). -/
theorem hostSet_of_fits {x : RegWrite} (h : x.name = .v → fitsVBits s.cfg x.value = true) :
    hostSet x s = .next (s.setReg x) := by
  cases x with
  | v x => exact if_pos (h rfl)
  | _ => rfl

theorem hostSet_of_too_wide {v : Nat} (h : fitsVBits s.cfg v = false) :
    hostSet (.v v) s = .refused .writeWiderThanV :=
  if_neg (Bool.eq_false_iff.mp h)

end RegisterWrite

section ElementWrite

/-- The write of the whole buffer that a write of one element amounts to. -/
def ElemWrite.whole (x : ElemWrite) (s : State) : BufWrite :=
  match x with
  | .img i x => .img (s.mem.img.val.set i x)
  | .wimg i x => .wimg (s.mem.wimg.val.set i x)
  | .pk i x => .pk (s.mem.pk.val.set i x)
  | .pal i x => .pal (s.mem.pal.val.set i x)
  | .str i x => .str (s.mem.str.val.set i x)
  | .run i x => .run (s.mem.run.val.set i x)
  | .vals i x => .vals (s.mem.vals.val.set i x)
  | .sym i x => .sym (s.mem.sym.val.set i x)
  | .rleb i x => .rleb (s.mem.rleb.val.set i x)
  | .valb i x => .valb (s.mem.valb.val.set i x)
  | .buf i x => .buf (s.mem.buf.val.set i x)
  | .pimg i x => .pimg (s.mem.pimg.val.set i x)

/-- Everything a write of one element can do, in terms of the place it names (R360). -/
theorem hostPoke_eq (x : ElemWrite) (s : State) :
    hostPoke x s =
      if (s.place (.buf x.name)).valid = false then .refused .writeToInvalidBuffer
      else if x.index < (s.place (.buf x.name)).val.length then .next (hostLoad (x.whole s) s)
      else .refused .writeBeyondLength := by
  cases x <;> rfl

theorem ElemWrite.name_whole (x : ElemWrite) (s : State) : (x.whole s).name = x.name := by cases x <;> rfl

theorem ElemWrite.whole_withHost (x : ElemWrite) (s : State) (ms : List HostMove) :
    x.whole { s with host := ms } = x.whole s := by cases x <;> rfl

theorem ElemWrite.length_whole (x : ElemWrite) (s : State) :
    (x.whole s).value.length = (s.place (.buf x.name)).val.length := by
  cases x <;> exact List.length_set

theorem ElemWrite.element_whole_self {x : ElemWrite} (h : x.index < (s.place (.buf x.name)).val.length) :
    (x.whole s).value.element x.index = some x.value := by
  cases x <;> exact congrArg (Option.map _) (List.getElem?_set_self h)

theorem ElemWrite.element_whole_ne {x : ElemWrite} {j : Nat} (h : j ≠ x.index) :
    (x.whole s).value.element j = (s.place (.buf x.name)).val.element j := by
  cases x <;> exact congrArg (Option.map _) (List.getElem?_set_ne h.symm)

end ElementWrite

section Read

/-- A read of a register answers what the place holds (R360). -/
theorem hostReadReg_eq (r : RegName) (s : State) :
    hostReadReg r s =
      if (s.place (.reg r)).valid then .ok (s.place (.reg r)).val else .error .readOfInvalidRegister := by
  cases r <;> rfl

/-- A read of a buffer answers what the place holds (R360). -/
theorem hostReadBuf_eq (b : BufName) (s : State) :
    hostReadBuf b s = if (s.place (.buf b)).valid then .ok (s.place (.buf b)).val else .error .readOfInvalidBuffer := by
  cases b <;> rfl

theorem readElem_eq {α : Type} (x : Slot (List α)) (i : Nat) (f : α → HostValue) :
    readElem x i f =
      if x.valid = false then .error .readOfInvalidBuffer
      else (x.val[i]?.map f).elim (.error .readBeyondLength) .ok := by
  unfold readElem
  cases x.val[i]? <;> rfl

/-- A read of an element answers the element of what the place holds (R360, log 6). -/
theorem hostReadElem_eq (b : BufName) (i : Nat) (s : State) :
    hostReadElem b i s =
      if (s.place (.buf b)).valid = false then .error .readOfInvalidBuffer
      else ((s.place (.buf b)).val.element i).elim (.error .readBeyondLength) .ok := by
  cases b <;> exact readElem_eq _ _ _

/-- Contents have no element from their length on, and one at each index before. -/
theorem HostValue.element_eq_none_iff {v : HostValue} {i : Nat} : v.element i = none ↔ v.length ≤ i := by
  cases v <;> simp [HostValue.element, HostValue.length]

/-- What a read answers does not depend on the pending moves. -/
theorem hostRead_withHost (x : HostRead) (s : State) (ms : List HostMove) :
    hostRead x { s with host := ms } = hostRead x s := by
  cases x with
  | reg r => simp only [hostRead, hostReadReg_eq, s.place_withHost ms]
  | buf b => simp only [hostRead, hostReadBuf_eq, s.place_withHost ms]
  | elem b i => simp only [hostRead, hostReadElem_eq, s.place_withHost ms]
  | _ => rfl

/-- A read that answers takes its move off the list and changes nothing else (20_memory.md R71). -/
theorem step_read_of_ok {x : HostRead} {v : HostValue} (hhost : s.host = .read x :: ms) (h : hostRead x s = .ok v) :
    step s = .next { s with host := ms } := by
  rw [step_move hhost]
  exact makeMove_read.mpr ⟨rfl, v, (hostRead_withHost x s ms).trans h⟩

theorem step_read_of_error {x : HostRead} {r : Refusal} (hhost : s.host = .read x :: ms)
    (h : hostRead x s = .error r) : step s = .refused r := by
  rw [step_move hhost, makeMove, hostRead_withHost, h]

end Read

end Sys2Proof.Machine
end

section
/-! PROOFS. The statements about the accesses of the host (70_reset_and_hazards.md). -/

namespace Sys2Proof.Proofs.HostFamily

open Sys2Proof Sys2Proof.Machine

/-- Settles O15: the write stores in the register it names and leaves the rest; only `V` has values it cannot hold. -/
theorem hostRegisterWriteSetsOneRegister : Obligations.HostRegisterWriteSetsOneRegister := by
  refine ⟨fun s x ms hhost hfits => ?_, fun s v ms hhost hwide => ?_⟩
  · have hstep : step s = .next ((Write.reg x).apply { s with host := ms }) :=
      (step_move hhost).trans (hostSet_of_fits hfits)
    exact ⟨_, hstep, Write.place_apply_self rfl _, Write.apply_elsewhere rfl s ms⟩
  · exact (step_move hhost).trans (hostSet_of_too_wide hwide)

/-- Settles O16: a write of one element is a write of the whole buffer that differs at the element only. -/
theorem hostBufferWrites : Obligations.HostBufferWrites := by
  refine ⟨fun s x ms hhost => ?_, fun s x ms hhost => ?_⟩
  · exact ⟨(Write.buf x).apply { s with host := ms }, step_move hhost, Write.place_apply_self rfl _,
      Write.apply_elsewhere rfl s ms⟩
  · have hpoke : step s = hostPoke x { s with host := ms } := step_move hhost
    rw [hpoke, hostPoke_eq, s.place_withHost ms, x.whole_withHost s ms]
    refine ⟨fun hinvalid => if_pos hinvalid, fun hvalid hlen => ?_, fun hvalid hlen => ?_⟩
    · rw [if_neg (Bool.ne_false_iff.mpr hvalid), if_neg hlen.not_gt]
    · rw [if_neg (Bool.ne_false_iff.mpr hvalid), if_pos hlen]
      have hloc : (Write.buf (x.whole s)).loc = .place (.buf x.name) := by rw [Write.loc, x.name_whole]
      have hself : (hostLoad (x.whole s) { s with host := ms }).place (.buf x.name) = .put (x.whole s).value :=
        Write.place_apply_self hloc _
      refine ⟨_, rfl, ?_⟩
      rw [hself]
      exact ⟨ElemWrite.element_whole_self hlen, fun _ => ElemWrite.element_whole_ne, rfl, x.length_whole s,
        Write.apply_elsewhere hloc s ms⟩

/-- Settles O17: the answer is decided by the valid bit and the contents of the place the read names. -/
theorem hostReadsChangeNothing : Obligations.HostReadsChangeNothing := by
  refine ⟨fun s ms hhost => step_read_of_error hhost rfl, fun s r ms hhost => ⟨fun hinvalid => ?_, fun hvalid => ?_⟩,
    fun s b ms hhost => ⟨fun hinvalid => ?_, fun hvalid => ?_⟩,
    fun s b i ms hhost => ⟨fun hinvalid => ?_, fun hvalid hlen => ?_, fun hvalid hlen => ?_⟩,
    fun s x ms hx hhost => ?_, fun s => ⟨rfl, rfl, rfl, rfl⟩⟩
  · exact step_read_of_error hhost (by simp [hostRead, hostReadReg_eq, hinvalid])
  · have hread : hostRead (.reg r) s = .ok (s.place (.reg r)).val := by simp [hostRead, hostReadReg_eq, hvalid]
    exact ⟨step_read_of_ok hhost hread, hread⟩
  · exact step_read_of_error hhost (by simp [hostRead, hostReadBuf_eq, hinvalid])
  · have hread : hostRead (.buf b) s = .ok (s.place (.buf b)).val := by simp [hostRead, hostReadBuf_eq, hvalid]
    exact ⟨step_read_of_ok hhost hread, hread⟩
  · exact step_read_of_error hhost (by simp [hostRead, hostReadElem_eq, hinvalid])
  · have hnone := HostValue.element_eq_none_iff.mpr hlen
    exact step_read_of_error hhost (by simp [hostRead, hostReadElem_eq, hvalid, hnone])
  · obtain ⟨x, hx⟩ := Option.ne_none_iff_exists'.mp (HostValue.element_eq_none_iff.not.mpr hlen.not_ge)
    have hread : hostRead (.elem b i) s = .ok x := by simp [hostRead, hostReadElem_eq, hvalid, hx]
    exact ⟨step_read_of_ok hhost hread, x, hx, hread⟩
  · rcases hx with rfl | rfl | rfl | rfl <;> exact step_read_of_ok hhost rfl

end Sys2Proof.Proofs.HostFamily
end
